-- ==== Sys2Proof/Word.lean ====
section
/-! DEFINITION. The word types of the block: a byte on the wire, a 16-bit bound, level, count or comparator, and a
32-bit descriptor word, address or length (spec/00_scope.md R8, R11). Every value is unsigned (R11). -/

namespace Sys2Proof

/-- One byte: a panel opcode, a parameter byte, a pixel byte (R70). -/
abbrev Byte := BitVec 8

/-- A 16-bit field: window bounds, counts, the level, the PWM comparator and counter (R26, R38, R39). -/
abbrev Half := BitVec 16

/-- A 32-bit word: descriptor words, host buffer addresses, byte counts, parameter values (R8, R81). -/
abbrev Word := BitVec 32

end Sys2Proof
end

