-- ==== Sys2Proof/Config.lean ====
section
/-! DEFINITION. The parameter record of one instance (spec/00_scope.md R7, R8), the constraints it must meet (R8, R180,
and U2, U4 of spec/93_implementation_defined.md), and the free values of the model. -/

namespace Sys2Proof

/-- The parameters of R8, raw. A default stands where R8 gives one; `yOffset`, `hres`, `vres` and `initScript` are OPEN
with no default. The fixed widths `PARAM_W`, `ADDR_W`, `LEN_W` = 32 and `PWM_W` = 16 are in the types. -/
structure Params where
  /-- `TXBUF_CAP`, bytes of the transmit buffer. -/
  txbufCap : Nat := 64
  /-- `Y_OFFSET`, rows added to both row bounds. -/
  yOffset : Nat
  /-- `HRES`, columns. -/
  hres : Nat
  /-- `VRES`, rows. -/
  vres : Nat
  /-- `BYTES_PER_PIXEL`. -/
  bytesPerPixel : Nat := 2
  /-- `T_RST_MS`, the settle delay at each step of the reset pulse. -/
  tRstMs : Nat := 10
  /-- `T_SLPOUT_MS`, the delay after sleep-out. -/
  tSlpoutMs : Nat := 120
  /-- `CMD_SLPOUT`. PRESUMED default, the spec's general knowledge G1 (log 10). -/
  cmdSlpout : Byte := 0x11
  /-- `CMD_DISPON`. PRESUMED default (log 10). -/
  cmdDispon : Byte := 0x29
  /-- `CMD_CASET`. PRESUMED default (log 10). -/
  cmdCaset : Byte := 0x2A
  /-- `CMD_RASET`. PRESUMED default (log 10). -/
  cmdRaset : Byte := 0x2B
  /-- `CMD_RAMWR`. PRESUMED default (log 10). -/
  cmdRamwr : Byte := 0x2C
  /-- `INIT_SCRIPT`, the configuration commands in order, each an opcode byte and its parameter bytes (R124). -/
  initScript : List (Byte × List Byte)
  /-- `PWM_TOP`, the value at which the PWM counter wraps to 0 (R39). -/
  pwmTop : Half := 65535
  /-- `SCLK_HZ`. No rule depends on it. -/
  sclkHz : Nat := 1
  /-- `SPI_CPOL`, the idle level of SCLK. -/
  spiCpol : Bool := false
  /-- `SPI_CPHA`, the sampling edge. No rule depends on it. -/
  spiCpha : Bool := false
  /-- `SPI_MSB_FIRST`, the order of bits within a byte on MOSI. -/
  spiMsbFirst : Bool := true
  deriving DecidableEq, Repr

/-- The constraints of R8, with the two lower bounds below which a record is outside what the source vouches for
(R9, R210, U2, U4). -/
def Params.ok (p : Params) : Bool :=
  decide (4 ≤ p.txbufCap) && p.initScript.all (fun e => decide (e.2.length ≤ p.txbufCap)) &&
  decide (1 ≤ p.hres) && decide (p.hres ≤ 65536) && decide (1 ≤ p.vres) && decide (p.vres + p.yOffset ≤ 65536) &&
  decide (1 ≤ p.bytesPerPixel) && decide (10 ≤ p.tRstMs) && decide (120 ≤ p.tSlpoutMs)

/-- A configuration of the block: a parameter record that meets its constraints. A record that breaks one "is not a
configuration of this block; a model refuses to build it" (R180), so no term of this type holds it. -/
structure Config where
  params : Params
  ok : params.ok = true
  deriving DecidableEq, Repr

/-- Build a configuration, or refuse (R180). -/
def Config.build (p : Params) : Option Config :=
  if h : p.ok = true then some { params := p, ok := h } else none

/-- The record CFG-T of spec/95_test_vectors.md section 0. DESIGN CHOICE (log 1): the instance State.reset stands for.
Its offset, resolution and script "are for testing only" and are not the target panel's. -/
def Params.cfgT : Params where
  yOffset := 20
  hres := 240
  vres := 280
  initScript := [(0x3A, [0x05]), (0x36, [0x00]), (0xB2, [0x0C, 0x0C, 0x00, 0x33, 0x33])]

/-- CFG-T as a configuration (log 1). -/
def Config.cfgT : Config where
  params := Params.cfgT
  ok := by decide

/-- FREE VALUE (log 11): the level of MOSI after a byte has been shifted out; the spec gives none (R24). -/
opaque Config.freeMosi : Nat → Bool

/-- FREE VALUE (log 13): the level of BL in the counter period in which a comparator write landed (R161), and before the
platform has set the counter up (R206). -/
opaque Config.freeBl : Nat → Bool

end Sys2Proof
end

