-- ==== Sys2Proof/Syntax.lean ====
section
/-! DEFINITION. The operations of the block, one constructor per row of spec/opcode_table.json: the five host operations
(spec/30_encoding.md R80), the six pseudo-operations (R88) and the configuration command (spec/42_panel_sequencer.md R124). -/

namespace Sys2Proof

/-- One operation, operands in the order of the assembler syntax (R87). -/
inductive Instr where
  /-- `XFER d, buf, len` (R101). -/
  | xfer (d : Bool) (buf len : Word)
  /-- `WREG opc, p0, p1, ...` (R112). -/
  | wreg (opc : Byte) (ps : List Word)
  /-- `INIT` (R121). -/
  | init
  /-- `FLUSH x1, y1, x2, y2, buf, len` (R140). -/
  | flush (x1 y1 x2 y2 : Half) (buf len : Word)
  /-- `SETBL level` (R156). -/
  | setbl (level : Half)
  /-- `SLPOUT` (R88, R123). -/
  | slpout
  /-- `DISPON` (R88, R125). -/
  | dispon
  /-- `CASET a, b` (R88, R138). -/
  | caset (a b : Half)
  /-- `RASET a, b`; no offset is added (R88). -/
  | raset (a b : Half)
  /-- `RAMWR` (R88, R144). -/
  | ramwr
  /-- `PIXELS buf, len` (R88). -/
  | pixels (buf len : Word)
  /-- One configuration command: an opcode byte and its parameter bytes (R124; log 9). -/
  | initScriptEntry (opc : Byte) (bs : List Byte)
  deriving DecidableEq, Repr

end Sys2Proof
end

