-- ==== Sys2Proof/Machine/State.lean ====
section
/-! DEFINITION. The state of the block (spec/10_state.md R20 to R44) as plain data, with the host buffer space
(spec/20_memory.md R50), the list of what the outside world still does, the reasons a step can stop, and the state after
reset (R44). -/

namespace Sys2Proof.Machine

/-- PHASE (R28): COLD, the sequencer has not run; SEQ, it is running; READY, it has finished. The value 3 never occurs. -/
inductive Phase where
  | cold | seq | ready
  deriving DecidableEq, Repr

/-- The eight fault causes (spec/60_exceptions.md R172), in the order of their codes 0 to 7. -/
inductive Cause where
  | illegalOp | notReady | seqRerun | paramOverflow | badRect | lengthMismatch | bufRange | levelRange
  deriving DecidableEq, Repr

/-- RESP (R32): the response to the most recent submission. -/
inductive Resp where
  | none | pending | ok
  | err (c : Cause)
  deriving DecidableEq, Repr

/-- The ten micro-operations (R33). -/
inductive MicroOp where
  | cs (b : Bool)
  | dc (b : Bool)
  | rst (b : Bool)
  | imm (v : Byte)
  | tx (i : Nat)
  | src (i : Nat)
  | fill (bs : List Byte)
  | delay (ms : Nat)
  | pwm (v : Half)
  | done
  deriving DecidableEq, Repr

/-- The events, the alphabet of TRACE (spec/00_scope.md R13). -/
inductive Event where
  | cs (b : Bool)
  | dc (b : Bool)
  | rst (b : Bool)
  | byte (v : Byte)
  | delay (ms : Nat)
  | pwm (v : Half)
  | done
  deriving DecidableEq, Repr

/-- The five stored output lines (R21 to R24); true is level 1. BL is a function of the PWM state (R25). -/
structure Lines where
  cs : Bool
  dc : Bool
  rst : Bool
  sclk : Bool
  mosi : Bool
  deriving DecidableEq, Repr

/-- The operand latches, the block's general registers (R26). -/
structure Latches where
  op : BitVec 4
  d : Bool
  opc : Byte
  n : Half
  level : Half
  x1 : Half
  y1 : Half
  x2 : Half
  y2 : Half
  buf : Word
  len : Word
  deriving DecidableEq, Repr

/-- The PWM state: comparator PWM_CMP (R38) and counter PWM_CTR (R39); `on`, the platform has set the counter up
(spec/70_reset_and_hazards.md R206); `fresh`, a comparator write landed in the running counter period
(spec/44_backlight.md R161). The last two are the model's own (log 13). -/
structure Pwm where
  cmp : Half
  ctr : Half
  on : Bool
  fresh : Bool
  deriving DecidableEq, Repr

/-- The four status registers (R42). -/
inductive StatusReg where
  | s0 | s1 | s2 | s3
  deriving DecidableEq, Repr

/-- What R44 leaves unspecified after reset: a value for each such field. -/
structure ResetLevels where
  dc : Bool
  rst : Bool
  sclk : Bool
  mosi : Bool
  lat : Latches
  txbuf : List Byte
  pwmCtr : Half
  deriving DecidableEq, Repr

/-- DESIGN CHOICE, unsafe (log 2): every field R44 leaves unspecified is zero in State.reset. -/
def ResetLevels.zero : ResetLevels where
  dc := false
  rst := false
  sclk := false
  mosi := false
  lat := { op := 0, d := false, opc := 0, n := 0, level := 0, x1 := 0, y1 := 0, x2 := 0, y2 := 0, buf := 0, len := 0 }
  txbuf := []
  pwmCtr := 0

/-- What the outside world does, one element an act, in order (log 4). -/
inductive Input where
  /-- The host hands over descriptor words (R36, R81); it waits while BUSY = 1. -/
  | submit (ws : List Word)
  /-- The host hands over one operation in its abstract form (spec/30_encoding.md R80, R88); it waits while BUSY = 1. -/
  | issue (i : Instr)
  /-- The host lets the engine perform one micro-operation before its next act (R35, R60). -/
  | engine
  /-- The host reads a status register (R42). -/
  | readStatus (r : StatusReg)
  /-- The host writes a status register; "a write to them has no effect" (R42). -/
  | writeStatus (r : StatusReg) (v : Word)
  /-- The host stores a byte in its own memory (R51, R211). -/
  | store (a : Word) (v : Byte)
  /-- The platform sets the PWM counter up (R206). -/
  | pwmStart
  /-- The PWM counter counts once (R39). -/
  | pwmTick
  /-- The reset input is asserted (R200, R203); the argument is what R44 leaves unspecified. -/
  | reset (u : ResetLevels)
  deriving DecidableEq, Repr

/-- Memory: address and byte pairs, addresses strictly rising, no byte equal to what an unlisted address reads as. -/
abbrev Memory := List Host.Cell

/-- The machine stops. No state that a run from reset reaches raises any of these (Safety.lean); each is safe, since the
model then says less than the hardware does (log 15). -/
inductive Fault where
  /-- Raised by uTX i when TXBUF holds no filled byte i: R33 requires `i < TXLEN`. Safe. -/
  | txIndex
  /-- Raised by uFILL bs when bs is longer than TXBUF_CAP, which R33 requires it not to be. Safe. -/
  | fillOverflow
  /-- Raised by uSRC i when BUF + i lies past the top of the host buffer space (R50, R52). Safe. -/
  | hostAddress
  /-- Raised by the engine when BUSY = 1 with UQ empty, which never occurs (U17). Safe. -/
  | busyWithEmptyQueue
  deriving DecidableEq, Repr

/-- The machine gives the submission no meaning. Each is safe: the model then says nothing of the hardware. -/
inductive Refusal where
  /-- Raised by exec for an instruction with no meaning yet. Safe. -/
  | notModelled (mnemonic : String)
  /-- Raised by a meaning called while BUSY = 1: the submit step is not enabled (R36). step never does so. Safe (log 5). -/
  | portNotReady
  /-- Raised by step when the host hands over fewer words than W0 calls for (R81, R84). Safe (log 6). -/
  | incompleteDescriptor
  /-- Raised by step when the host issues an operation that has no descriptor (WellFormed.lean). Safe (log 21). -/
  | illFormed
  deriving DecidableEq, Repr

/-- The state (R20), the host buffer space (R50), and the model's own `inputs`, `readback` and `freeCount`. -/
structure State where
  /-- The parameter record: configuration (R7, R43), written by no step. -/
  cfg : Config
  lines : Lines
  lat : Latches
  phase : Phase
  busy : Bool
  done : Bool
  fault : BitVec 8
  resp : Resp
  /-- UQ, head first (R34). -/
  uq : List MicroOp
  /-- TXBUF, TXBUF_CAP bytes (R37). -/
  txbuf : List Byte
  txlen : Nat
  pwm : Pwm
  /-- TMR, milliseconds (R40). DESIGN CHOICE (log 25): a natural number with no bound; R184 gives no width. -/
  tmr : Nat
  /-- TRACE, oldest event first (R41). -/
  trace : List Event
  /-- The host buffer space (R50). -/
  mem : Memory
  /-- What the outside world still does, first act first (log 4). -/
  inputs : List Input
  /-- What the host has read from the status registers, oldest first (log 18). -/
  readback : List Word
  /-- The index of the next free value (log 11, log 13). -/
  freeCount : Nat
  deriving DecidableEq, Repr

/-- TXBUF_CAP bytes of unspecified content (R44). -/
def ResetLevels.txbufFor (u : ResetLevels) (cap : Nat) : List Byte :=
  (u.txbuf ++ List.replicate cap 0).take cap

/-- The state after power-on (R44, R200) of the instance `c`, for every choice `u` of what R44 leaves unspecified. Host
memory lists nothing, and nothing is submitted yet. -/
def State.powerOn (c : Config) (u : ResetLevels) : State where
  cfg := c
  lines := { cs := true, dc := u.dc, rst := u.rst, sclk := u.sclk, mosi := u.mosi }
  lat := u.lat
  phase := .cold
  busy := false
  done := false
  fault := 0
  resp := .none
  uq := []
  txbuf := u.txbufFor c.params.txbufCap
  txlen := 0
  pwm := { cmp := 0, ctr := u.pwmCtr, on := false, fresh := false }
  tmr := 0
  trace := []
  mem := []
  inputs := []
  readback := []
  freeCount := 0

/-- The machine right after reset: the instance CFG-T (log 1), unspecified fields zero (log 2). -/
def State.reset : State := State.powerOn Config.cfgT ResetLevels.zero

end Sys2Proof.Machine
end

