-- ==== Sys2Proof/Machine/Flags.lean ====
section
/-! DEFINITION. Status: the fault codes and the sticky FAULT bits (spec/60_exceptions.md R172), the admission checks in
their fixed order (R173), and the four status words the host reads (spec/10_state.md R42). -/

namespace Sys2Proof.Machine

/-- The code of a cause: its bit number in FAULT and RESP's code field (R172). -/
def Cause.code : Cause → Nat
  | .illegalOp => 0
  | .notReady => 1
  | .seqRerun => 2
  | .paramOverflow => 3
  | .badRect => 4
  | .lengthMismatch => 5
  | .bufRange => 6
  | .levelRange => 7

/-- FAULT with the bit of the cause set (R31, R36). -/
def setFaultBit (f : BitVec 8) (c : Cause) : BitVec 8 := f ||| BitVec.twoPow 8 c.code

/-- PHASE as its two bits (R28). -/
def Phase.bits : Phase → BitVec 2
  | .cold => 0
  | .seq => 1
  | .ready => 2

/-- RESP[1:0] (R42). -/
def Resp.kindBits : Resp → BitVec 2
  | .none => 0
  | .pending => 1
  | .ok => 2
  | .err _ => 3

/-- RESP[10:8]: the fault code when RESP is an error, else 0 (R42). -/
def Resp.codeBits : Resp → BitVec 3
  | .none => 0
  | .pending => 0
  | .ok => 0
  | .err c => BitVec.ofNat 3 c.code

/-- S0 STATUS: [0] BUSY, [1] DONE, [3:2] PHASE, the rest 0 (R42). -/
def statusS0 (s : State) : BitVec 32 :=
  0#28 ++ s.phase.bits ++ BitVec.ofBool s.done ++ BitVec.ofBool s.busy

/-- S1 FAULT: [7:0] FAULT, the rest 0 (R42). -/
def statusS1 (s : State) : BitVec 32 := 0#24 ++ s.fault

/-- S2 PWMCMP: [15:0] PWM_CMP, the rest 0 (R42). -/
def statusS2 (s : State) : BitVec 32 := 0#16 ++ s.pwm.cmp

/-- S3 RESP: [1:0] the kind, [10:8] the code, the rest 0 (R42). -/
def statusS3 (s : State) : BitVec 32 := 0#21 ++ s.resp.codeBits ++ 0#6 ++ s.resp.kindBits

/-- The word a status register reads as (R42). -/
def statusWord (r : StatusReg) (s : State) : BitVec 32 :=
  match r with
  | .s0 => statusS0 s
  | .s1 => statusS1 s
  | .s2 => statusS2 s
  | .s3 => statusS3 s

/-! The checks (R173). Each returns the first cause that applies; comparisons are over natural numbers. IllegalOp, the
first of all, is the decoder's. -/

/-- `BUF + LEN > 2^32` (R52, R172). -/
def bufOverruns (buf len : BitVec 32) : Bool := decide (4294967296 < buf.toNat + len.toNat)

/-- `X1 <= X2 < HRES` and `Y1 <= Y2 < VRES` (spec/43_flush.md R141). -/
def rectOk (p : Params) (x1 y1 x2 y2 : BitVec 16) : Bool :=
  decide (x1.toNat ≤ x2.toNat) && decide (x2.toNat < p.hres) && decide (y1.toNat ≤ y2.toNat) && decide (y2.toNat < p.vres)

/-- XFER: NotReady, BufRange. -/
def checkXfer (s : State) (buf len : BitVec 32) : Option Cause :=
  if s.phase ≠ .ready then some .notReady
  else if bufOverruns buf len then some .bufRange
  else none

/-- WREG with `n` parameters: NotReady, ParamOverflow. -/
def checkWreg (s : State) (n : Nat) : Option Cause :=
  if s.phase ≠ .ready then some .notReady
  else if s.cfg.params.txbufCap < n then some .paramOverflow
  else none

/-- INIT: SeqRerun. -/
def checkInit (s : State) : Option Cause :=
  if s.phase ≠ .cold then some .seqRerun else none

/-- FLUSH: NotReady, BadRect, LengthMismatch, BufRange; `size` is the rectangle's byte size. -/
def checkFlush (s : State) (x1 y1 x2 y2 : BitVec 16) (size : Nat) (buf len : BitVec 32) : Option Cause :=
  if s.phase ≠ .ready then some .notReady
  else if rectOk s.cfg.params x1 y1 x2 y2 = false then some .badRect
  else if len.toNat ≠ size then some .lengthMismatch
  else if bufOverruns buf len then some .bufRange
  else none

/-- SETBL: LevelRange. -/
def checkSetbl (level : BitVec 16) : Option Cause :=
  if 255 < level.toNat then some .levelRange else none

end Sys2Proof.Machine
end

