-- ==== Sys2Proof/WellFormed.lean ====
section
/-! DEFINITION. Which operations have a descriptor: the parameter count is the 16-bit field N of the header
(spec/30_encoding.md R81, R84), so a list of 65536 parameters or more cannot be written. Every other operand fits its field
by its type. -/

namespace Sys2Proof

/-- The parameter count fits the field N (R84). -/
def countFits (n : Nat) : Bool := decide (n < 65536)

/-- The operation can be written as a descriptor. -/
def Instr.wellFormed : Instr → Bool
  | .xfer _ _ _ => true
  | .wreg _ ps => countFits ps.length
  | .init => true
  | .flush _ _ _ _ _ _ => true
  | .setbl _ => true
  | .slpout => true
  | .dispon => true
  | .caset _ _ => true
  | .raset _ _ => true
  | .ramwr => true
  | .pixels _ _ => true
  | .initScriptEntry _ bs => countFits bs.length

end Sys2Proof
end

