-- ==== Sys2Proof/Decode.lean ====
section
/-! DEFINITION. The encodings of spec/30_encoding.md. Bit fields and byte packing (R11, R73, R76); the descriptor decoder,
total on any list of words (R81 to R86), and the encoder; the wire frame of a register command, both ways (R70 to R77);
the words of spec/opcode_table.json (decodeTableWord). -/

namespace Sys2Proof

/-! Bit fields (R11). -/

/-- `trunc8(v) = v[7:0]` (R11, R73). -/
def trunc8 (v : Word) : Byte := v.extractLsb' 0 8

/-- `hi8(v) = v[15:8]` (R11). -/
def hi8 (v : Half) : Byte := v.extractLsb' 8 8

/-- `lo8(v) = v[7:0]` (R11). -/
def lo8 (v : Half) : Byte := v.extractLsb' 0 8

/-- `be16(v) = [v[15:8], v[7:0]]` (R76): most significant byte first (R54). -/
def be16 (v : Half) : List Byte := [hi8 v, lo8 v]

/-- A parameter byte widened to a `PARAM_W`-bit value with zeros (R11, R73). -/
def zext32 (b : Byte) : Word := b.setWidth 32

/-- The four bytes of a window command, start bound first (R76, R138). -/
def windowBytes (a b : Half) : List Byte := be16 a ++ be16 b

/-! The descriptor (R81 to R86). -/

/-- The five formats of R83. -/
inductive Format where
  | x | w | z | f | l
  deriving DecidableEq, Repr

/-- One row of R83's match and mask list over W0. -/
structure HeaderRow where
  format : Format
  pattern : Word
  mask : Word
  deriving DecidableEq, Repr

/-- R83: XFER, WREG, INIT, FLUSH, SETBL. -/
def headerTable : List HeaderRow :=
  [{ format := .x, pattern := 0x10000000, mask := 0xFEFFFFFF },
   { format := .w, pattern := 0x20000000, mask := 0xFF000000 },
   { format := .z, pattern := 0x30000000, mask := 0xFFFFFFFF },
   { format := .f, pattern := 0x40000000, mask := 0xFFFFFFFF },
   { format := .l, pattern := 0x50000000, mask := 0xFFFF0000 }]

/-- W0 matches the row. -/
def HeaderRow.covers (r : HeaderRow) (w0 : Word) : Bool := w0 &&& r.mask == r.pattern

/-- The format W0 names, or none: "A W0 that matches none of the five is illegal" (R83, R85). -/
def headerFormat (w0 : Word) : Option Format :=
  (headerTable.find? (fun r => r.covers w0)).map HeaderRow.format

/-- `OPC = W0[23:16]` (R86). -/
def headerOpc (w0 : Word) : Byte := w0.extractLsb' 16 8

/-- `N` and `LEVEL` are `W0[15:0]` (R86). -/
def headerImm (w0 : Word) : Half := w0.extractLsb' 0 16

/-- `D = W0[24]` (R86). -/
def headerD (w0 : Word) : Bool := w0.getLsbD 24

/-- The length of a descriptor in words follows from W0 alone (R84). -/
def descriptorLength (w0 : Word) : Option Nat :=
  match headerFormat w0 with
  | some .x => some 3
  | some .w => some (1 + (headerImm w0).toNat)
  | some .z => some 1
  | some .f => some 5
  | some .l => some 1
  | none => none

/-- Why words are no operation. -/
inductive DecodeError where
  /-- No word at all. -/
  | empty
  /-- W0 matches no format (R85): the submit step raises IllegalOp. -/
  | illegalOp
  /-- Fewer words than W0 calls for (R84): not a whole descriptor (log 6). -/
  | incomplete
  deriving DecidableEq, Repr

/-- Decode the first descriptor of a list of words; the words after it are returned (R81 to R86). -/
def decode : List Word → Except DecodeError (Instr × List Word)
  | [] => .error .empty
  | w0 :: ws =>
    match headerFormat w0 with
    | none => .error .illegalOp
    | some .x =>
      match ws with
      | buf :: len :: rest => .ok (.xfer (headerD w0) buf len, rest)
      | _ => .error .incomplete
    | some .w =>
      if (headerImm w0).toNat ≤ ws.length then
        .ok (.wreg (headerOpc w0) (ws.take (headerImm w0).toNat), ws.drop (headerImm w0).toNat)
      else .error .incomplete
    | some .z => .ok (.init, ws)
    | some .f =>
      match ws with
      | w1 :: w2 :: buf :: len :: rest =>
        .ok (.flush (w1.extractLsb' 16 16) (w1.extractLsb' 0 16) (w2.extractLsb' 16 16) (w2.extractLsb' 0 16) buf len, rest)
      | _ => .error .incomplete
    | some .l => .ok (.setbl (headerImm w0), ws)

/-- W0 from its fields: OP[31:28], reserved [27:25] = 0, D [24], OPC [23:16], IMM16 [15:0] (R81). -/
def encodeHeader (op : BitVec 4) (d : Bool) (opc : Byte) (imm : Half) : Word :=
  op ++ 0#3 ++ BitVec.ofBool d ++ opc ++ imm

/-- Format X (R83). -/
def encodeXfer (d : Bool) (buf len : Word) : List Word := [encodeHeader 1 d 0 0, buf, len]

/-- Format W (R83). -/
def encodeWreg (opc : Byte) (ps : List Word) : List Word :=
  encodeHeader 2 false opc (BitVec.ofNat 16 ps.length) :: ps

/-- Format F (R83). -/
def encodeFlush (x1 y1 x2 y2 : Half) (buf len : Word) : List Word :=
  [encodeHeader 4 false 0 0, x1 ++ y1, x2 ++ y2, buf, len]

/-- The descriptor of an operation; a pseudo-operation's is its expansion's (R83, R88). -/
def encode (p : Params) : Instr → List Word
  | .xfer d buf len => encodeXfer d buf len
  | .wreg opc ps => encodeWreg opc ps
  | .init => [encodeHeader 3 false 0 0]
  | .flush x1 y1 x2 y2 buf len => encodeFlush x1 y1 x2 y2 buf len
  | .setbl level => [encodeHeader 5 false 0 level]
  | .slpout => encodeWreg p.cmdSlpout []
  | .dispon => encodeWreg p.cmdDispon []
  | .caset a b => encodeWreg p.cmdCaset ((windowBytes a b).map zext32)
  | .raset a b => encodeWreg p.cmdRaset ((windowBytes a b).map zext32)
  | .ramwr => encodeWreg p.cmdRamwr []
  | .pixels buf len => encodeXfer true buf len
  | .initScriptEntry opc bs => encodeWreg opc (bs.map zext32)

/-- The host operation an operation stands for: itself, or its expansion (R88). -/
def Instr.core (p : Params) : Instr → Instr
  | .xfer d buf len => .xfer d buf len
  | .wreg opc ps => .wreg opc ps
  | .init => .init
  | .flush x1 y1 x2 y2 buf len => .flush x1 y1 x2 y2 buf len
  | .setbl level => .setbl level
  | .slpout => .wreg p.cmdSlpout []
  | .dispon => .wreg p.cmdDispon []
  | .caset a b => .wreg p.cmdCaset ((windowBytes a b).map zext32)
  | .raset a b => .wreg p.cmdRaset ((windowBytes a b).map zext32)
  | .ramwr => .wreg p.cmdRamwr []
  | .pixels buf len => .xfer true buf len
  | .initScriptEntry opc bs => .wreg opc (bs.map zext32)

/-! The wire frame of a register command: the opcode byte, then the parameter bytes, `1 + n` bytes (R70, R77). -/

/-- The frame an operation puts on the wire, for the operations that are one register command (R71, R73, R75). -/
def encodeFrame (p : Params) : Instr → Option (List Byte)
  | .xfer _ _ _ => none
  | .wreg opc ps => some (opc :: ps.map trunc8)
  | .init => none
  | .flush _ _ _ _ _ _ => none
  | .setbl _ => none
  | .slpout => some [p.cmdSlpout]
  | .dispon => some [p.cmdDispon]
  | .caset a b => some (p.cmdCaset :: windowBytes a b)
  | .raset a b => some (p.cmdRaset :: windowBytes a b)
  | .ramwr => some [p.cmdRamwr]
  | .pixels _ _ => none
  | .initScriptEntry opc bs => some (opc :: bs)

/-- The panel command a frame carries (R75): one of the five the block names, or another register command, as the entries
of INIT_SCRIPT are (R124; log 9). -/
def decodeFrame (p : Params) : List Byte → Option Instr
  | [] => none
  | opc :: bs =>
    match bs with
    | [] =>
      if opc = p.cmdSlpout then some .slpout
      else if opc = p.cmdDispon then some .dispon
      else if opc = p.cmdRamwr then some .ramwr
      else some (.initScriptEntry opc [])
    | [b0, b1, b2, b3] =>
      if opc = p.cmdCaset then some (.caset (b0 ++ b1) (b2 ++ b3))
      else if opc = p.cmdRaset then some (.raset (b0 ++ b1) (b2 ++ b3))
      else some (.initScriptEntry opc [b0, b1, b2, b3])
    | _ => some (.initScriptEntry opc bs)

/-! The words of spec/opcode_table.json. -/

/-- The low `32 k` bits of a number as `k` words, the first word from the low bits. -/
def wordsOf : Nat → Nat → List Word
  | 0, _ => []
  | k + 1, v => BitVec.ofNat 32 v :: wordsOf k (v / 4294967296)

/-- The descriptor whose low bits are `w`: as many words as its W0 calls for, the bits above `nbits` zero; W0 alone when it
is illegal (R84, R85). -/
def tableWords (nbits w : Nat) : List Word :=
  wordsOf ((descriptorLength (BitVec.ofNat 32 (w % 2 ^ nbits))).getD 1) (w % 2 ^ nbits)

/-- The frame of a panel command's row, named by its opcode byte: CASET and RASET take four parameter bytes, here zeros
(R75); the opcode bytes are the table's own, the defaults of R8 (log 10). -/
def tableFrame (w : Nat) : List Byte :=
  let opc : Byte := BitVec.ofNat 8 w
  if opc = Params.cfgT.cmdCaset ∨ opc = Params.cfgT.cmdRaset then [opc, 0, 0, 0, 0] else [opc]

/-- The operation the decoder reads from a table row's bits: rows of 8 bits are panel commands (wire format), the others
are descriptors. -/
def decodeTableWord (nbits w : Nat) : Option Instr :=
  if nbits ≤ 8 then decodeFrame Params.cfgT (tableFrame (w % 2 ^ nbits))
  else
    match decode (tableWords nbits w) with
    | .ok (i, _) => some i
    | .error _ => none

end Sys2Proof
end

