-- ==== Sys2Proof/Machine/Operands.lean ====
section
/-! DEFINITION. The micro-operation lists the operations expand to: the transport call (spec/40_transport.md R100), the
command encoder (spec/41_command_encoder.md R111), the window computer (spec/43_flush.md R137, R138) and the five
expansions (R101, R112, R121, R140, R156). -/

namespace Sys2Proof.Machine

/-- The indices `0 .. n-1` (R100). -/
def indices (n : Nat) : List Nat := List.range n

/-- `call_imm(d, vs)` (R100). -/
def callImm (d : Bool) (vs : List Byte) : List MicroOp :=
  [.cs false, .dc d] ++ vs.map MicroOp.imm ++ [.cs true]

/-- `call_tx(n)` (R100). -/
def callTx (n : Nat) : List MicroOp :=
  [.cs false, .dc true] ++ (indices n).map MicroOp.tx ++ [.cs true]

/-- `call_src(d, m)` (R100). -/
def callSrc (d : Bool) (m : Nat) : List MicroOp :=
  [.cs false, .dc d] ++ (indices m).map MicroOp.src ++ [.cs true]

/-- `wreg(opc, bs)` (R111): command phase; then, only if there are parameters, fill TXBUF and send it. -/
def wregOps (opc : Byte) (bs : List Byte) : List MicroOp :=
  callImm false [opc] ++ (if bs.length = 0 then [] else [.fill bs] ++ callTx bs.length)

/-- The reset pulse: high, low, high, a settle delay after each level (R122). -/
def resetPulse (p : Params) : List MicroOp :=
  [.rst true, .delay p.tRstMs, .rst false, .delay p.tRstMs, .rst true, .delay p.tRstMs]

/-- The configuration commands, in order, with no delay between them (R124). -/
def scriptOps (script : List (Byte × List Byte)) : List MicroOp :=
  script.flatMap (fun e => wregOps e.1 e.2)

/-- `Y + Y_OFFSET` in 16-bit unsigned arithmetic (R137). -/
def offsetRow (p : Params) (y : Half) : Half := y + BitVec.ofNat 16 p.yOffset

/-- `Expand(XFER d, buf, len)` (R101). -/
def expandXfer (d : Bool) (len : Word) : List MicroOp := callSrc d len.toNat

/-- `Expand(WREG opc, P)` (R112). -/
def expandWreg (opc : Byte) (ps : List Word) : List MicroOp := wregOps opc (ps.map trunc8)

/-- `Expand(INIT)` (R121). -/
def expandInit (p : Params) : List MicroOp :=
  resetPulse p ++ wregOps p.cmdSlpout [] ++ [.delay p.tSlpoutMs] ++ scriptOps p.initScript ++ wregOps p.cmdDispon []

/-- `Expand(FLUSH x1, y1, x2, y2, buf, len)` (R140). -/
def expandFlush (p : Params) (x1 y1 x2 y2 : Half) (len : Word) : List MicroOp :=
  wregOps p.cmdCaset (windowBytes x1 x2) ++
  wregOps p.cmdRaset (windowBytes (offsetRow p y1) (offsetRow p y2)) ++
  wregOps p.cmdRamwr [] ++ callSrc true len.toNat ++ [.done]

/-- `level * level` as a 16-bit value (R156, R157). -/
def duty (level : Half) : Half := BitVec.ofNat 16 (level.toNat * level.toNat)

/-- `Expand(SETBL level)` (R156). -/
def expandSetbl (level : Half) : List MicroOp := [.pwm (duty level)]

/-- The byte size of a rectangle, exact, for ordered bounds (R142, R143). -/
def rectBytes (p : Params) (x1 y1 x2 y2 : Half) : Nat :=
  (x2.toNat - x1.toNat + 1) * (y2.toNat - y1.toNat + 1) * p.bytesPerPixel

/-- The eight bits of a byte in the order they leave on MOSI (R24, R56). -/
def serialBits (p : Params) (v : Byte) : List Bool :=
  let lsbFirst := (List.range 8).map (fun i => v.getLsbD i)
  if p.spiMsbFirst then lsbFirst.reverse else lsbFirst

end Sys2Proof.Machine
end

