-- ==== Sys2Proof/Machine/Ops.lean ====
section
/-! DEFINITION. The named operations over the state: host memory (spec/20_memory.md R52), the lines and TRACE
(spec/10_state.md R33, R41), raising a fault (spec/60_exceptions.md R171), accepting an operation (R36), performing one
micro-operation (R33), the engine step (R35), hardware reset (R44, R200), and the PWM counter and output
(spec/44_backlight.md R160, R161). -/

namespace Sys2Proof.Machine

/-! Host memory. -/

/-- What an address that nothing has written reads as. DESIGN CHOICE, unsafe (log 3): the spec gives host memory no
contents, and a read "always succeeds" (R52). -/
def unlistedByte : Byte := 0

/-- Every listed address is above `lo`, rising, below 2^32, and its byte differs from `unlistedByte`. -/
def Memory.wfFrom : Nat → Memory → Bool
  | _, [] => true
  | lo, (a, v) :: m =>
    decide (lo ≤ a) && decide (a < 4294967296) && decide (v ≠ unlistedByte) && Memory.wfFrom (a + 1) m

/-- The canonical form of memory. -/
def Memory.wf (m : Memory) : Bool := Memory.wfFrom 0 m

/-- `MemRead(addr, 1)` (R52). -/
def Memory.read : Memory → Nat → Byte
  | [], _ => unlistedByte
  | (b, v) :: m, a => if a = b then v else Memory.read m a

/-- A host store (R51); the canonical form is kept. -/
def Memory.write : Memory → Nat → Byte → Memory
  | [], a, v => if v = unlistedByte then [] else [(a, v)]
  | (b, w) :: m, a, v =>
    if a < b then (if v = unlistedByte then (b, w) :: m else (a, v) :: (b, w) :: m)
    else if a = b then (if v = unlistedByte then m else (a, v) :: m)
    else (b, w) :: Memory.write m a v

/-! Lines, TRACE and the small state updates. -/

/-- `emit E` appends the event at the end (R41). -/
def State.emit (s : State) (e : Event) : State := { s with trace := s.trace ++ [e] }

/-- `x[CS] <- b` (R21). -/
def State.setCs (s : State) (b : Bool) : State := { s with lines := { s.lines with cs := b } }

/-- `x[DC] <- b` (R22). -/
def State.setDc (s : State) (b : Bool) : State := { s with lines := { s.lines with dc := b } }

/-- `x[RST] <- b` (R23). -/
def State.setRst (s : State) (b : Bool) : State := { s with lines := { s.lines with rst := b } }

/-- Shift one byte out (R24): the whole shifting of the eight bits is the event BYTE. SCLK is back at its idle level
(DEDUCED, log 11); the level MOSI is left at is a free value (log 11). -/
def State.shiftOut (s : State) (v : Byte) : State :=
  { s with
    lines := { s.lines with sclk := s.cfg.params.spiCpol, mosi := Config.freeMosi s.freeCount }
    freeCount := s.freeCount + 1
    trace := s.trace ++ [.byte v] }

/-- `TXBUF[k] <- bs[k]`, `TXLEN <- len(bs)` (R33, R37): bytes at higher indices stay. -/
def State.fillTx (s : State) (bs : List Byte) : State :=
  { s with txbuf := bs ++ s.txbuf.drop bs.length, txlen := bs.length }

/-- `TMR <- ms` (R33, R40; log 12), whole: the model's TMR has no width (log 25). -/
def State.loadTimer (s : State) (ms : Nat) : State := { s with tmr := ms }

/-- `x[PWM_CMP] <- v` (R38); a running counter's period is then open (R161; log 13). -/
def State.writePwm (s : State) (v : Half) : State :=
  { s with pwm := { s.pwm with cmp := v, fresh := s.pwm.on }, freeCount := s.freeCount + 1 }

/-- `x[DONE] <- 1` (R30, R146). -/
def State.setDone (s : State) : State := { s with done := true }

/-! Faults and acceptance. -/

/-- `raise c` (R171): FAULT[c] is set, RESP is err(c), nothing else changes. -/
def State.raise (s : State) (c : Cause) : State :=
  { s with fault := setFaultBit s.fault c, resp := .err c }

/-- Accept an operation (R36): latches, UQ, BUSY and RESP. -/
def State.accept (s : State) (lat : Latches) (uq : List MicroOp) : State :=
  { s with lat := lat, uq := uq, busy := true, resp := .pending }

/-- `x[DONE] <- 0`, when a FLUSH is accepted (R30, R36). -/
def State.clearDone (s : State) : State := { s with done := false }

/-- `x[PHASE] <- SEQ`, when INIT is accepted (R28, R36). -/
def State.startSeq (s : State) : State := { s with phase := .seq }

/-- The submit step (R36) after `Check` has answered `c`: raise it, or take the accepted state. It is enabled only while
BUSY = 0 (log 5). -/
def submit (s : State) (c : Option Cause) (accepted : State) : Host.Outcome State Fault Refusal :=
  if s.busy then .refused .portNotReady
  else
    match c with
    | some cause => .next (s.raise cause)
    | none => .next accepted

/-- Latches XFER loads (R26). -/
def Latches.loadXfer (l : Latches) (d : Bool) (buf len : Word) : Latches := { l with op := 1, d := d, buf := buf, len := len }

/-- Latches WREG loads (R26). -/
def Latches.loadWreg (l : Latches) (opc : Byte) (n : Half) : Latches := { l with op := 2, opc := opc, n := n }

/-- The latch INIT loads (R26). -/
def Latches.loadInit (l : Latches) : Latches := { l with op := 3 }

/-- Latches FLUSH loads (R26). -/
def Latches.loadFlush (l : Latches) (x1 y1 x2 y2 : Half) (buf len : Word) : Latches :=
  { l with op := 4, x1 := x1, y1 := y1, x2 := x2, y2 := y2, buf := buf, len := len }

/-- Latches SETBL loads (R26). -/
def Latches.loadSetbl (l : Latches) (level : Half) : Latches := { l with op := 5, level := level }

/-- Submit a raw transfer (R101), the operation XFER and PIXELS share. -/
def submitXfer (d : Bool) (buf len : Word) (s : State) : Host.Outcome State Fault Refusal :=
  submit s (checkXfer s buf len) (s.accept (s.lat.loadXfer d buf len) (expandXfer d len))

/-- Submit a register command (R112), the operation WREG and the panel commands share. -/
def submitWreg (opc : Byte) (ps : List Word) (s : State) : Host.Outcome State Fault Refusal :=
  submit s (checkWreg s ps.length)
    (s.accept (s.lat.loadWreg opc (BitVec.ofNat 16 ps.length)) (expandWreg opc ps))

/-! The engine. -/

/-- Perform one micro-operation (R33). The faults stand for states no run reaches (log 15). -/
def perform (u : MicroOp) (s : State) : Host.Outcome State Fault Refusal :=
  match u with
  | .cs b => .next ((s.setCs b).emit (.cs b))
  | .dc b => .next ((s.setDc b).emit (.dc b))
  | .rst b => .next ((s.setRst b).emit (.rst b))
  | .imm v => .next (s.shiftOut v)
  | .tx i =>
    if i < s.txlen then
      match s.txbuf[i]? with
      | some v => .next (s.shiftOut v)
      | none => .fault .txIndex
    else .fault .txIndex
  | .src i =>
    if s.lat.buf.toNat + i < 4294967296 then .next (s.shiftOut (Memory.read s.mem (s.lat.buf.toNat + i)))
    else .fault .hostAddress
  | .fill bs => if bs.length ≤ s.cfg.params.txbufCap then .next (s.fillTx bs) else .fault .fillOverflow
  | .delay ms => .next ((s.loadTimer ms).emit (.delay ms))
  | .pwm v => .next ((s.writePwm v).emit (.pwm v))
  | .done => .next (s.setDone.emit .done)

/-- PHASE when an operation has ended: SEQ becomes READY (R35). -/
def Phase.settle : Phase → Phase
  | .cold => .cold
  | .seq => .ready
  | .ready => .ready

/-- `UQ <- rest`, and the end of the operation when nothing is left (R35). -/
def State.retire (s : State) (rest : List MicroOp) : State :=
  match rest with
  | [] => { s with uq := [], busy := false, resp := .ok, phase := s.phase.settle }
  | u :: us => { s with uq := u :: us }

/-- The engine step (R35). With UQ empty and BUSY = 0 there is nothing to do and nothing changes (R219; log 17). -/
def engineStep (s : State) : Host.Outcome State Fault Refusal :=
  match s.uq with
  | [] => if s.busy then .fault .busyWithEmptyQueue else .next s
  | u :: rest =>
    match perform u s with
    | .next t => .next (t.retire rest)
    | .fault f => .fault f
    | .refused r => .refused r

/-! Reset, the PWM counter, and the host's other acts. -/

/-- Hardware reset (R44, R200, R203). The panel is not reset (R202); host memory is the host's; TRACE starts a new epoch
(log 14). -/
def State.hardReset (s : State) (u : ResetLevels) : State :=
  { s with
    lines := { cs := true, dc := u.dc, rst := u.rst, sclk := u.sclk, mosi := u.mosi }
    lat := u.lat
    phase := .cold
    busy := false
    done := false
    fault := 0
    resp := .none
    uq := []
    txbuf := u.txbufFor s.cfg.params.txbufCap
    txlen := 0
    pwm := { s.pwm with cmp := 0, ctr := u.pwmCtr, fresh := false }
    tmr := 0
    trace := [] }

/-- The count after `c`: 0, 1, ..., PWM_TOP, 0, ... (R39; log 23). -/
def nextCount (top c : Half) : Half := if c = top then 0 else c + 1

/-- The PWM counter counts once, if the platform has set it up (R39, R206). The wrap at PWM_TOP ends an open period
(R161). DESIGN CHOICE (log 26): the 16-bit overflow of a count above PWM_TOP does not end it. -/
def State.pwmTick (s : State) : State :=
  if s.pwm.on then
    { s with
      pwm := { s.pwm with
        ctr := nextCount s.cfg.params.pwmTop s.pwm.ctr
        fresh := s.pwm.fresh && decide (s.pwm.ctr ≠ s.cfg.params.pwmTop) }
      freeCount := s.freeCount + 1 }
  else s

/-- The platform sets the PWM counter up (R206). DESIGN CHOICE (log 27): PWM_CTR keeps its value, and has not counted before. -/
def State.pwmStart (s : State) : State := { s with pwm := { s.pwm with on := true } }

/-- The backlight output (R25, R160): 1 while PWM_CTR < PWM_CMP. PRESUMED, the spec's general knowledge G3. A free value
in the period a write lands in (R161) and before the counter is set up (R206) (log 13). -/
def State.bl (s : State) : Bool :=
  if s.pwm.on && !s.pwm.fresh then decide (s.pwm.ctr.toNat < s.pwm.cmp.toNat) else Config.freeBl s.freeCount

/-- The host stores a byte in its memory (R51). -/
def State.hostStore (s : State) (a : Word) (v : Byte) : State := { s with mem := Memory.write s.mem a.toNat v }

/-- The host reads a status register: no side effect on the block (R42; log 18). -/
def State.hostRead (s : State) (r : StatusReg) : State := { s with readback := s.readback ++ [statusWord r s] }

/-- The rest of the outside world's acts (log 4). -/
def State.withInputs (s : State) (inputs : List Input) : State := { s with inputs := inputs }

end Sys2Proof.Machine
end

