-- ==== Sys2Proof/Machine/Backlight.lean ====
section
/-! DEFINITION. The Backlight Controller's operation (spec/44_backlight.md): SETBL. -/

namespace Sys2Proof.Machine

/-- SETBL (R156): accepted in every PHASE (R163). -/
def execSetbl (level : Half) (s : State) : Host.Outcome State Fault Refusal :=
  submit s (checkSetbl level) (s.accept (s.lat.loadSetbl level) (expandSetbl level))

end Sys2Proof.Machine
end

