-- ==== Sys2Proof/Machine/CommandEncoder.lean ====
section
/-! DEFINITION. The Command Encoder's operations (spec/41_command_encoder.md): WREG, the pseudo-operations that are register
commands (spec/30_encoding.md R88), and a configuration command (spec/42_panel_sequencer.md R124). -/

namespace Sys2Proof.Machine

/-- WREG (R112). -/
def execWreg (opc : Byte) (ps : List Word) (s : State) : Host.Outcome State Fault Refusal := submitWreg opc ps s

/-- `SLPOUT` is `WREG CMD_SLPOUT` (R88). -/
def execSlpout (s : State) : Host.Outcome State Fault Refusal := submitWreg s.cfg.params.cmdSlpout [] s

/-- `DISPON` is `WREG CMD_DISPON` (R88). -/
def execDispon (s : State) : Host.Outcome State Fault Refusal := submitWreg s.cfg.params.cmdDispon [] s

/-- `CASET a, b` is `WREG CMD_CASET, a[15:8], a[7:0], b[15:8], b[7:0]` (R88). -/
def execCaset (a b : Half) (s : State) : Host.Outcome State Fault Refusal :=
  submitWreg s.cfg.params.cmdCaset ((windowBytes a b).map zext32) s

/-- `RASET a, b` is `WREG CMD_RASET, a[15:8], a[7:0], b[15:8], b[7:0]`; no offset is added (R88). -/
def execRaset (a b : Half) (s : State) : Host.Outcome State Fault Refusal :=
  submitWreg s.cfg.params.cmdRaset ((windowBytes a b).map zext32) s

/-- `RAMWR` is `WREG CMD_RAMWR` (R88). -/
def execRamwr (s : State) : Host.Outcome State Fault Refusal := submitWreg s.cfg.params.cmdRamwr [] s

/-- A configuration command sent by the host: the register command (opc, bs) (R71, R124). DESIGN CHOICE (log 9): as the
host operation that sends it, WREG. INIT sends its entries itself (Sequencer.lean). -/
def execInitScriptEntry (opc : Byte) (bs : List Byte) (s : State) : Host.Outcome State Fault Refusal :=
  submitWreg opc (bs.map zext32) s

end Sys2Proof.Machine
end

