-- ==== Sys2Proof/Machine/FlushPipeline.lean ====
section
/-! DEFINITION. The Addressing and Flush Pipeline's operation (spec/43_flush.md): FLUSH. -/

namespace Sys2Proof.Machine

/-- FLUSH (R140): checks of R141, R142; DONE is cleared at acceptance (R30). -/
def execFlush (x1 y1 x2 y2 : Half) (buf len : Word) (s : State) : Host.Outcome State Fault Refusal :=
  submit s (checkFlush s x1 y1 x2 y2 (rectBytes s.cfg.params x1 y1 x2 y2) buf len)
    (s.clearDone.accept (s.lat.loadFlush x1 y1 x2 y2 buf len) (expandFlush s.cfg.params x1 y1 x2 y2 len))

end Sys2Proof.Machine
end

