-- ==== Sys2Proof/Machine/Sequencer.lean ====
section
/-! DEFINITION. The Panel Sequencer's operation (spec/42_panel_sequencer.md): INIT. -/

namespace Sys2Proof.Machine

/-- INIT (R121): accepted only in COLD (R128); PHASE is SEQ from acceptance (R28). -/
def execInit (s : State) : Host.Outcome State Fault Refusal :=
  submit s (checkInit s) (s.startSeq.accept s.lat.loadInit (expandInit s.cfg.params))

end Sys2Proof.Machine
end

