-- ==== Sys2Proof/Machine/Transport.lean ====
section
/-! DEFINITION. The Bus Transport's operations (spec/40_transport.md): XFER and its pseudo-operation PIXELS. -/

namespace Sys2Proof.Machine

/-- XFER (R101). -/
def execXfer (d : Bool) (buf len : Word) (s : State) : Host.Outcome State Fault Refusal := submitXfer d buf len s

/-- `PIXELS buf, len` is `XFER 1, buf, len` (spec/30_encoding.md R88). -/
def execPixels (buf len : Word) (s : State) : Host.Outcome State Fault Refusal := submitXfer true buf len s

end Sys2Proof.Machine
end

