-- ==== Sys2Proof/Machine/Dispatch.lean ====
section
/-! DEFINITION. One arm per operation: the submit step of that operation (spec/10_state.md R36). -/

namespace Sys2Proof.Machine

def exec (i : Instr) (s : State) : Host.Outcome State Fault Refusal :=
  match i with
  | .xfer d buf len => Sys2Proof.Machine.execXfer d buf len s
  | .wreg opc ps => Sys2Proof.Machine.execWreg opc ps s
  | .init => Sys2Proof.Machine.execInit s
  | .flush x1 y1 x2 y2 buf len => Sys2Proof.Machine.execFlush x1 y1 x2 y2 buf len s
  | .setbl level => Sys2Proof.Machine.execSetbl level s
  | .slpout => Sys2Proof.Machine.execSlpout s
  | .dispon => Sys2Proof.Machine.execDispon s
  | .caset a b => Sys2Proof.Machine.execCaset a b s
  | .raset a b => Sys2Proof.Machine.execRaset a b s
  | .ramwr => Sys2Proof.Machine.execRamwr s
  | .pixels buf len => Sys2Proof.Machine.execPixels buf len s
  | .initScriptEntry opc bs => Sys2Proof.Machine.execInitScriptEntry opc bs s

end Sys2Proof.Machine
end

