-- ==== Sys2Proof/Machine/Port.lean ====
section
/-! DEFINITION. The request port and the other acts of the outside world (spec/10_state.md R36, R42;
spec/70_reset_and_hazards.md R218): what one element of `inputs` does, and where an operation is placed to run next. -/

namespace Sys2Proof.Machine

/-- The inputs left after a descriptor has been taken: words after it are the next submission (log 6). -/
def restInputs (more : List Word) (rest : List Input) : List Input :=
  match more with
  | [] => rest
  | w :: ws => .submit (w :: ws) :: rest

/-- The host hands over descriptor words while BUSY = 0 (R36, R64). An illegal W0 "alone" is the whole descriptor (R85). -/
def submitWords (ws : List Word) (rest : List Input) (s : State) : Host.Outcome State Fault Refusal :=
  match decode ws with
  | .ok (i, more) => exec i (s.withInputs (restInputs more rest))
  | .error .illegalOp => .next ((s.withInputs (restInputs ws.tail rest)).raise .illegalOp)
  | .error .empty => .next (s.withInputs rest)
  | .error .incomplete => .refused .incompleteDescriptor

/-- The host hands over one operation while BUSY = 0 (R80, R88; log 8, log 21). -/
def submitInstr (i : Instr) (rest : List Input) (s : State) : Host.Outcome State Fault Refusal :=
  if i.wellFormed then exec i (s.withInputs rest) else .refused .illFormed

/-- One step with the act `x` first in `inputs` and `rest` after it. A submission waits while BUSY = 1 and the engine goes
on (R36); every other act is taken at once (R218). -/
def takeInput (x : Input) (rest : List Input) (s : State) : Host.Outcome State Fault Refusal :=
  match x with
  | .submit ws => if s.busy then engineStep s else submitWords ws rest s
  | .issue i => if s.busy then engineStep s else submitInstr i rest s
  | .engine => engineStep (s.withInputs rest)
  | .readStatus r => .next ((s.hostRead r).withInputs rest)
  | .writeStatus _ _ => .next (s.withInputs rest)
  | .store a v => .next ((s.hostStore a v).withInputs rest)
  | .pwmStart => .next (s.pwmStart.withInputs rest)
  | .pwmTick => .next (s.pwmTick.withInputs rest)
  | .reset u => .next ((s.hardReset u).withInputs rest)

/-- One step of the machine: the outside world's next act, or the engine when it has none (log 4). -/
def stepOnce (s : State) : Host.Outcome State Fault Refusal :=
  match s.inputs with
  | [] => engineStep s
  | x :: rest => takeInput x rest s

/-- The act that hands over the operation of a table row's bits (log 20). -/
def fetchInput (nbits w : Nat) : Input :=
  if nbits ≤ 8 then
    match decodeTableWord nbits w with
    | some i => .issue i
    | none => .submit []
  else .submit (tableWords nbits w)

/-- Place the operation of a table row's bits first in `inputs`, with the request port ready (BUSY = 0, UQ empty), so that
the next step takes it (R36; log 20). -/
def placeFirst (s : State) (nbits w : Nat) : State :=
  { s with busy := false, uq := [], inputs := fetchInput nbits w :: s.inputs }

end Sys2Proof.Machine
end

