-- ==== Sys2Proof/Machine/Step.lean ====
section
/-! DEFINITION. The step function (Machine/Port.lean holds its parts) and where a program's next operation is placed. -/

namespace Sys2Proof.Machine

/-- One step of the machine. -/
def step (s : State) : Host.Outcome State Fault Refusal := stepOnce s

/-- `s` with one operation placed where `step` takes its next submission (log 20). -/
def State.withFetchWord (s : State) (nbits w : Nat) : State := placeFirst s nbits w

end Sys2Proof.Machine
end

