-- ==== Sys2Proof/Machine/Trace.lean ====
section
/-! DEFINITION. Reading TRACE: the transport calls in it (spec/10_state.md R41), the bits on MOSI (R24, R56), and the events
a micro-operation list is going to emit (R33, R60). -/

namespace Sys2Proof.Machine

/-- TRACE read as transport calls and other events (R41). -/
inductive WireItem where
  | call (d : Bool) (bytes : List Byte)
  | event (e : Event)
  deriving DecidableEq, Repr

/-- The events of `Call(d, bytes)` (R13). -/
def callEvents (d : Bool) (bytes : List Byte) : List Event :=
  [.cs false, .dc d] ++ bytes.map Event.byte ++ [.cs true]

/-- A run `BYTE ... BYTE CS(1)` at the front: its bytes and what follows. -/
def takeBytes : List Event → Option (List Byte × List Event)
  | .byte v :: es =>
    match takeBytes es with
    | some (bs, rest) => some (v :: bs, rest)
    | none => none
  | .cs true :: es => some ([], es)
  | _ => none

/-- A whole run `CS(0), DC(d), BYTE ..., CS(1)` at the front (R41). -/
def takeCall : List Event → Option (WireItem × List Event)
  | .cs false :: .dc d :: es =>
    match takeBytes es with
    | some (bs, rest) => some (.call d bs, rest)
    | none => none
  | _ => none

/-- `calls` with a bound on the number of items. -/
def callsUpTo : Nat → List Event → List WireItem
  | 0, _ => []
  | _ + 1, [] => []
  | n + 1, e :: es =>
    match takeCall (e :: es) with
    | some (c, rest) => c :: callsUpTo n rest
    | none => .event e :: callsUpTo n es

/-- `calls(TRACE)` (R41). -/
def calls (t : List Event) : List WireItem := callsUpTo t.length t

/-- The calls of the register command (opc, bs) (R71, R72). -/
def commandCalls (opc : Byte) (bs : List Byte) : List WireItem :=
  if bs.length = 0 then [.call false [opc]] else [.call false [opc], .call true bs]

/-- The events of the register command (opc, bs) (R71). -/
def commandEvents (opc : Byte) (bs : List Byte) : List Event :=
  callEvents false [opc] ++ (if bs.length = 0 then [] else callEvents true bs)

/-- The `n` bytes of host memory from `base` (R55). -/
def hostBytes (m : Memory) (base n : Nat) : List Byte :=
  (List.range n).map (fun i => Memory.read m (base + i))

/-- The event trace of INIT (R121). -/
def initEvents (p : Params) : List Event :=
  [.rst true, .delay p.tRstMs, .rst false, .delay p.tRstMs, .rst true, .delay p.tRstMs] ++
  commandEvents p.cmdSlpout [] ++ [.delay p.tSlpoutMs] ++
  p.initScript.flatMap (fun e => commandEvents e.1 e.2) ++ commandEvents p.cmdDispon []

/-- The event trace of FLUSH with the pixel bytes `px` (R140, R145). -/
def flushEvents (p : Params) (x1 y1 x2 y2 : Half) (px : List Byte) : List Event :=
  commandEvents p.cmdCaset (windowBytes x1 x2) ++
  commandEvents p.cmdRaset (windowBytes (offsetRow p y1) (offsetRow p y2)) ++
  commandEvents p.cmdRamwr [] ++ callEvents true px ++ [.done]

/-- The bits on MOSI, in order (R24, R56). -/
def mosiBits (p : Params) (t : List Event) : List Bool :=
  t.flatMap (fun e =>
    match e with
    | .byte v => serialBits p v
    | .cs _ => []
    | .dc _ => []
    | .rst _ => []
    | .delay _ => []
    | .pwm _ => []
    | .done => [])

/-- The events a list of micro-operations emits with TXBUF holding `tx`, BUF = `base` and host memory `m` unchanged (R33,
R60). -/
def futureEvents (m : Memory) (base : Nat) : List Byte → List MicroOp → List Event
  | _, [] => []
  | tx, .cs b :: us => .cs b :: futureEvents m base tx us
  | tx, .dc b :: us => .dc b :: futureEvents m base tx us
  | tx, .rst b :: us => .rst b :: futureEvents m base tx us
  | tx, .imm v :: us => .byte v :: futureEvents m base tx us
  | tx, .tx i :: us => .byte (tx.getD i 0) :: futureEvents m base tx us
  | tx, .src i :: us => .byte (Memory.read m (base + i)) :: futureEvents m base tx us
  | tx, .fill bs :: us => futureEvents m base (bs ++ tx.drop bs.length) us
  | tx, .delay ms :: us => .delay ms :: futureEvents m base tx us
  | tx, .pwm v :: us => .pwm v :: futureEvents m base tx us
  | tx, .done :: us => .done :: futureEvents m base tx us

end Sys2Proof.Machine
end

