-- ==== Sys2Proof/Safety.lean ====
section
/-! DEFINITION. The terms claims are stated in: runs of many steps, the wire discipline of TRACE (spec/40_transport.md R106),
the invariant of the machine, the invariant of the start-up sequence (spec/42_panel_sequencer.md R127), and what a
submission or a finished operation leaves unchanged. -/

namespace Sys2Proof.Machine

/-! Runs. -/

/-- `n` steps; it stops at the first fault or refusal. -/
def steps : Nat → State → Host.Outcome State Fault Refusal
  | 0, s => .next s
  | n + 1, s =>
    match step s with
    | .next t => steps n t
    | .fault f => .fault f
    | .refused r => .refused r

/-- `n` counts of the PWM counter and nothing else (R39). -/
def pwmTicks : Nat → State → State
  | 0, s => s
  | n + 1, s => pwmTicks n s.pwmTick

/-! The wire discipline (R106). -/

/-- Where in a transport call the wires are. -/
inductive Wire where
  /-- No call: CS is 1. -/
  | idle
  /-- CS has fallen, DC is not set yet. -/
  | selected
  /-- Inside a call with DC = d. -/
  | inCall (d : Bool)
  deriving DecidableEq, Repr

/-- RST, DELAY, PWM and DONE events, and uFILL, stand between calls. -/
def Wire.between : Wire → Option Wire
  | .idle => some .idle
  | .selected => none
  | .inCall _ => none

/-- CS falls only between calls and rises only at the end of one. -/
def Wire.chipSelect (b : Bool) : Wire → Option Wire
  | .idle => if b then none else some .selected
  | .selected => none
  | .inCall _ => if b then some .idle else none

/-- DC is set once, directly after CS has fallen. -/
def Wire.dataCommand (d : Bool) : Wire → Option Wire
  | .idle => none
  | .selected => some (.inCall d)
  | .inCall _ => none

/-- A byte stands inside a call. -/
def Wire.shift : Wire → Option Wire
  | .idle => none
  | .selected => none
  | .inCall d => some (.inCall d)

/-- The one event order R106 allows; none where it is broken. -/
def Wire.next (w : Wire) : Event → Option Wire
  | .cs b => w.chipSelect b
  | .dc d => w.dataCommand d
  | .rst _ => w.between
  | .byte _ => w.shift
  | .delay _ => w.between
  | .pwm _ => w.between
  | .done => w.between

/-- The same over micro-operations; uFILL stands between calls. -/
def Wire.nextOp (w : Wire) : MicroOp → Option Wire
  | .cs b => w.chipSelect b
  | .dc d => w.dataCommand d
  | .rst _ => w.between
  | .imm _ => w.shift
  | .tx _ => w.shift
  | .src _ => w.shift
  | .fill _ => w.between
  | .delay _ => w.between
  | .pwm _ => w.between
  | .done => w.between

/-- The wires after a trace, from reset; none if it breaks R106. -/
def wireAfter (t : List Event) : Option Wire := t.foldlM Wire.next .idle

/-- The wires after a list of micro-operations from `w`. -/
def wireOps (w : Wire) (us : List MicroOp) : Option Wire := us.foldlM Wire.nextOp w

/-- CS and DC agree with the place in the call. -/
def Wire.agrees (w : Wire) (l : Lines) : Bool :=
  match w with
  | .idle => l.cs
  | .selected => !l.cs
  | .inCall d => !l.cs && l.dc == d

/-! The invariant. -/

/-- Every micro-operation of the list can be performed: each uTX index is below the fill count it will meet, each uFILL
fits, each uSRC address exists (the "requires" clauses of R33, and R52). -/
def queueSafe (cap base : Nat) : Nat → List MicroOp → Bool
  | _, [] => true
  | n, .tx i :: us => decide (i < n) && queueSafe cap base n us
  | n, .src i :: us => decide (base + i < 4294967296) && queueSafe cap base n us
  | _, .fill bs :: us => decide (bs.length ≤ cap) && queueSafe cap base bs.length us
  | n, .cs _ :: us => queueSafe cap base n us
  | n, .dc _ :: us => queueSafe cap base n us
  | n, .rst _ :: us => queueSafe cap base n us
  | n, .imm _ :: us => queueSafe cap base n us
  | n, .delay _ :: us => queueSafe cap base n us
  | n, .pwm _ :: us => queueSafe cap base n us
  | n, .done :: us => queueSafe cap base n us

/-- What holds of every state a run from reset reaches. -/
structure State.Inv (s : State) : Prop where
  /-- BUSY = 1 exactly when UQ is not empty (R29). -/
  busy_iff : s.busy = true ↔ s.uq ≠ []
  /-- RESP is pending exactly while an operation runs (R32). -/
  pending_iff : s.resp = .pending ↔ s.busy = true
  /-- PHASE is SEQ only while the sequencer runs (R28, R128). -/
  seq_busy : s.phase = .seq → s.busy = true
  /-- TXBUF has TXBUF_CAP bytes (R37). -/
  tx_length : s.txbuf.length = s.cfg.params.txbufCap
  /-- `TXLEN <= TXBUF_CAP` (R37). -/
  tx_fill : s.txlen ≤ s.cfg.params.txbufCap
  /-- The rest of the running operation can be performed (R33, R178). -/
  queue_safe : queueSafe s.cfg.params.txbufCap s.lat.buf.toNat s.txlen s.uq = true
  /-- Host memory is in canonical form. -/
  mem_wf : Memory.wf s.mem = true
  /-- TRACE keeps the order of R106, CS and DC agree with it, and the rest of the operation ends with CS = 1 (R21). -/
  wire : ∃ w, wireAfter s.trace = some w ∧ w.agrees s.lines = true ∧ wireOps w s.uq = some .idle

/-! The start-up sequence (R127, R128). -/

/-- Every event but PWM. -/
def Event.notPwm : Event → Bool
  | .pwm _ => false
  | .cs _ => true
  | .dc _ => true
  | .rst _ => true
  | .byte _ => true
  | .delay _ => true
  | .done => true

/-- The events only the sequencer emits (R23, R127). -/
def Event.isSequencer : Event → Bool
  | .rst _ => true
  | .delay _ => true
  | .cs _ => false
  | .dc _ => false
  | .byte _ => false
  | .pwm _ => false
  | .done => false

/-- uPWM. -/
def MicroOp.isPwm : MicroOp → Bool
  | .pwm _ => true
  | _ => false

/-- uSRC. -/
def MicroOp.isSrc : MicroOp → Bool
  | .src _ => true
  | _ => false

/-- uRST and uDELAY. -/
def MicroOp.isSequencer : MicroOp → Bool
  | .rst _ => true
  | .delay _ => true
  | _ => false

/-- Before INIT only the backlight has been driven; while it runs TRACE and what is still to come make exactly the event
trace of R121; after it that trace stands first and no RST or DELAY event follows (R127). PWM events, which SETBL adds in
any phase, are left aside. -/
def State.SequencerInv (s : State) : Prop :=
  match s.phase with
  | .cold => s.trace.all (fun e => !e.notPwm) = true ∧ s.uq.all MicroOp.isPwm = true
  | .seq =>
    s.trace.filter Event.notPwm ++ futureEvents s.mem s.lat.buf.toNat s.txbuf s.uq = initEvents s.cfg.params ∧
    s.uq.all (fun u => !u.isPwm && !u.isSrc) = true
  | .ready =>
    ∃ later, s.trace.filter Event.notPwm = initEvents s.cfg.params ++ later ∧
      later.all (fun e => !e.isSequencer) = true ∧ s.uq.all (fun u => !u.isSequencer) = true

/-! Frames. -/

/-- What no submission changes: the parameters, the lines, TXBUF, the PWM state, TMR, TRACE, host memory (every byte), the
outside world's list and readings, and the free-value index. -/
structure SubmissionFrame (s t : State) : Prop where
  cfg : t.cfg = s.cfg
  lines : t.lines = s.lines
  txbuf : t.txbuf = s.txbuf
  txlen : t.txlen = s.txlen
  pwm : t.pwm = s.pwm
  tmr : t.tmr = s.tmr
  trace : t.trace = s.trace
  mem : ∀ a, Memory.read t.mem a = Memory.read s.mem a
  inputs : t.inputs = s.inputs
  readback : t.readback = s.readback
  freeCount : t.freeCount = s.freeCount
  /-- FAULT: at most one bit is set, that of the cause RESP then reports (R171). -/
  fault : t.fault = s.fault ∨ ∃ c, t.fault = setFaultBit s.fault c ∧ t.resp = .err c

/-- A finished operation (R35): BUSY = 0, UQ empty, RESP = ok; and what no operation changes while it runs with nothing else
happening: FAULT, the parameters, host memory (every byte), the host's readings; no act of the outside world is left. -/
structure Finished (s t : State) : Prop where
  busy : t.busy = false
  uq : t.uq = []
  resp : t.resp = .ok
  fault : t.fault = s.fault
  cfg : t.cfg = s.cfg
  mem : ∀ a, Memory.read t.mem a = Memory.read s.mem a
  readback : t.readback = s.readback
  inputs : t.inputs = []

/-! Readings of TRACE, UQ and the header that statements use. -/

/-- The level of CS after a trace, from reset (R21, R44). -/
def csLevel (t : List Event) : Bool :=
  t.foldl (fun l e =>
    match e with
    | .cs b => b
    | _ => l) true

/-- The index of a host buffer read (R33). -/
def MicroOp.srcIndex : MicroOp → Option Nat
  | .src i => some i
  | _ => none

/-- uFILL, the one micro-operation that emits no event (R33, R129). -/
def MicroOp.isFill : MicroOp → Bool
  | .fill _ => true
  | _ => false

/-- R85 in its own words: reserved OP, a nonzero reserved bit, or a nonzero must-be-zero field for its OP (R81). -/
def illegalHeader (w0 : Word) : Prop :=
  w0.toNat / 268435456 = 0 ∨ 6 ≤ w0.toNat / 268435456 ∨
  w0.toNat / 33554432 % 8 ≠ 0 ∨
  (w0.toNat / 268435456 ≠ 1 ∧ w0.toNat / 16777216 % 2 ≠ 0) ∨
  (w0.toNat / 268435456 ≠ 2 ∧ w0.toNat / 65536 % 256 ≠ 0) ∨
  (w0.toNat / 268435456 ≠ 2 ∧ w0.toNat / 268435456 ≠ 5 ∧ w0.toNat % 65536 ≠ 0)

/-- The five opcode bytes the block sends are pairwise different, as their defaults are (R75). -/
def opcodesDiffer (p : Params) : Prop :=
  [p.cmdSlpout, p.cmdDispon, p.cmdCaset, p.cmdRaset, p.cmdRamwr].Nodup

/-- The panel commands of R75: the five the block names, and a configuration command with any other opcode. -/
def isPanelCommand (p : Params) : Instr → Prop
  | .slpout => True
  | .dispon => True
  | .caset _ _ => True
  | .raset _ _ => True
  | .ramwr => True
  | .initScriptEntry opc _ => opc ∉ [p.cmdSlpout, p.cmdDispon, p.cmdCaset, p.cmdRaset, p.cmdRamwr]
  | .xfer _ _ _ => False
  | .wreg _ _ => False
  | .init => False
  | .flush _ _ _ _ _ _ => False
  | .setbl _ => False
  | .pixels _ _ => False

/-- The operations that are one raw transfer of `len` bytes at `buf` with DC = `d`: XFER and PIXELS (R88, R101). -/
def isTransfer (d : Bool) (buf len : Word) (i : Instr) : Prop :=
  i = .xfer d buf len ∨ (d = true ∧ i = .pixels buf len)

/-- The operations that are one register command `(opc, ps)`: WREG, and the panel commands by their expansions (R88,
R112; log 9). -/
def isRegisterCommand (p : Params) (opc : Byte) (ps : List Word) (i : Instr) : Prop :=
  i = .wreg opc ps ∨
  (i = .slpout ∧ opc = p.cmdSlpout ∧ ps = []) ∨
  (i = .dispon ∧ opc = p.cmdDispon ∧ ps = []) ∨
  (i = .ramwr ∧ opc = p.cmdRamwr ∧ ps = []) ∨
  (∃ a b, i = .caset a b ∧ opc = p.cmdCaset ∧
    ps = [zext32 (hi8 a), zext32 (lo8 a), zext32 (hi8 b), zext32 (lo8 b)]) ∨
  (∃ a b, i = .raset a b ∧ opc = p.cmdRaset ∧
    ps = [zext32 (hi8 a), zext32 (lo8 a), zext32 (hi8 b), zext32 (lo8 b)]) ∨
  (∃ bs, i = .initScriptEntry opc bs ∧ ps = bs.map zext32)

/-- `x1, y1, x2, y2` in the terms of the source's property: valid rectangles (R138). -/
def validRect (p : Params) (x1 y1 x2 y2 : Half) : Prop :=
  x1.toNat ≤ x2.toNat ∧ x2.toNat < p.hres ∧ y1.toNat ≤ y2.toNat ∧ y2.toNat < p.vres

/-- The acceptance conditions of FLUSH beside PHASE (R141, R142, R173). -/
def flushFits (p : Params) (x1 y1 x2 y2 : Half) (buf len : Word) : Prop :=
  validRect p x1 y1 x2 y2 ∧
  len.toNat = (x2.toNat - x1.toNat + 1) * (y2.toNat - y1.toNat + 1) * p.bytesPerPixel ∧
  buf.toNat + len.toNat ≤ 4294967296

/-- The number of micro-operations of a register command with `n` parameters (R111). -/
def commandLength (n : Nat) : Nat := if n = 0 then 4 else 8 + n

/-- The number of micro-operations of INIT (R129). -/
def initLength (p : Params) : Nat := 15 + (p.initScript.map (fun e => commandLength e.2.length)).sum

/-- TXBUF after the script's commands (R37, R121). -/
def scriptTxbuf (script : List (Byte × List Byte)) (tx : List Byte) : List Byte :=
  script.foldl (fun tx e => if e.2.length = 0 then tx else e.2 ++ tx.drop e.2.length) tx

/-- TXLEN after the script's commands (R37, R121). -/
def scriptTxlen (script : List (Byte × List Byte)) (n : Nat) : Nat :=
  script.foldl (fun n e => if e.2.length = 0 then n else e.2.length) n

end Sys2Proof.Machine
end

