-- ==== Sys2Proof/Certificates/Slice0/Obligations.lean ====
section
/-! DEFINITION. The statements for the provers, in the order of OBLIGATIONS.json. Each docstring names the rule of spec/ the
statement formalises; "log <n>" marks a clause that rests on the model's own choice. -/

open Sys2Proof Sys2Proof.Machine

/-! Encoding. -/

/-- R83, R84, R86, R88: decoding the descriptor of a well-formed operation, whatever words follow it, gives the operation
back (a pseudo-operation as its expansion, which is the same operation of the machine) and leaves the words after it. That
INIT_SCRIPT_entry has a descriptor and is a WREG is the model's choice, not R88's (log 9). -/
def Obligations.DecodeEncodeDescriptor : Prop :=
  ∀ (p : Params) (i : Instr) (rest : List Word), i.wellFormed = true →
    decode (encode p i ++ rest) = .ok (i.core p, rest) ∧
    (∀ d buf len, i = .xfer d buf len → i.core p = i) ∧ (∀ opc ps, i = .wreg opc ps → i.core p = i) ∧
    (i = .init → i.core p = i) ∧
    (∀ x1 y1 x2 y2 buf len, i = .flush x1 y1 x2 y2 buf len → i.core p = i) ∧
    (∀ level, i = .setbl level → i.core p = i) ∧
    (∀ s : State, s.cfg.params = p → exec (i.core p) s = exec i s)

/-- R70, R71, R75, R77: reading the wire frame of a panel command gives the command back (log 9 for INIT_SCRIPT_entry). -/
def Obligations.PanelFrameDecodesBack : Prop :=
  ∀ (p : Params) (i : Instr), opcodesDiffer p → isPanelCommand p i →
    ∃ bs, encodeFrame p i = some bs ∧ decodeFrame p bs = some i

/-- R85: a header is illegal exactly when its OP is reserved, a reserved bit is set, or a must-be-zero field is nonzero;
the submit step then rejects with IllegalOp and takes W0 alone. -/
def Obligations.IllegalHeaderIsRejected : Prop :=
  ∀ (w0 : Word) (ws : List Word) (rest : List Input) (s : State),
    (illegalHeader w0 ↔ decode (w0 :: ws) = .error .illegalOp) ∧
    (illegalHeader w0 → s.busy = false → s.inputs = .submit (w0 :: ws) :: rest →
      step s = .next { s with
        inputs := restInputs ws rest
        fault := s.fault ||| 0x01#8
        resp := .err .illegalOp })

/-- R83, spec/95_test_vectors.md 2.1: header words of each format, written out from the encoding. -/
def Obligations.HeaderWordsDecode : Prop :=
  decode [0x10000000#32, 1#32, 2#32] = .ok (.xfer false 1#32 2#32, []) ∧
  decode [0x11000000#32, 1#32, 2#32] = .ok (.xfer true 1#32 2#32, []) ∧
  decode [0x20110000#32] = .ok (.wreg 0x11#8 [], []) ∧
  decode [0x202A0004#32, 0#32, 0#32, 0#32, 9#32] = .ok (.wreg 0x2A#8 [0#32, 0#32, 0#32, 9#32], []) ∧
  decode [0x30000000#32] = .ok (.init, []) ∧
  decode [0x40000000#32, 0x000A00EC#32, 0x001400FA#32, 0x20001000#32, 0x0000014A#32] =
    .ok (.flush 10#16 236#16 20#16 250#16 0x20001000#32 330#32, []) ∧
  decode [0x500000FF#32] = .ok (.setbl 255#16, []) ∧
  decode [0x50000100#32] = .ok (.setbl 256#16, []) ∧
  decode [0x10000001#32] = .error .illegalOp ∧ decode [0x12000000#32] = .error .illegalOp ∧
  decode [0x21360001#32] = .error .illegalOp ∧ decode [0x50010000#32] = .error .illegalOp ∧
  decode [0xF0000000#32] = .error .illegalOp ∧ decode [0x00000000#32] = .error .illegalOp

/-- R84: the length of a descriptor follows from W0 alone. What the decoder does with more words (it takes exactly that many
and leaves the rest) and with fewer (incomplete) is the model's choice, of which the spec does not speak (log 6). -/
def Obligations.DescriptorLengthFollowsHeader : Prop :=
  ∀ (w0 : Word) (ws : List Word), ¬ illegalHeader w0 →
    ∃ n, n = (if w0.toNat / 268435456 = 1 then 3
        else if w0.toNat / 268435456 = 2 then 1 + w0.toNat % 65536
        else if w0.toNat / 268435456 = 4 then 5 else 1) ∧
      descriptorLength w0 = some n ∧
      (n ≤ ws.length + 1 → ∃ i, decode (w0 :: ws) = .ok (i, ws.drop (n - 1)) ∧ i.wellFormed = true) ∧
      (ws.length + 1 < n → decode (w0 :: ws) = .error .incomplete)

/-! One step. -/

/-- R36, R64, R80: with BUSY = 0 and a submission first, a step is the submit step of the operation handed over: of the
operation the words decode to, the words after it being the next submission (log 6), or of the operation issued (log 8).
Too few words, and an operation with no descriptor, are refused by name (log 6, log 21). -/
def Obligations.StepRunsDecodedOperation : Prop :=
  ∀ (s : State) (rest : List Input) (i : Instr), s.busy = false →
    (∀ ws, s.inputs = .submit ws :: rest → decode ws = .ok (i, []) → step s = exec i { s with inputs := rest }) ∧
    (∀ ws more, s.inputs = .submit ws :: rest → decode ws = .ok (i, more) → more ≠ [] →
      step s = exec i { s with inputs := .submit more :: rest }) ∧
    (s.inputs = .issue i :: rest → i.wellFormed = true → step s = exec i { s with inputs := rest }) ∧
    (∀ ws, s.inputs = .submit ws :: rest → decode ws = .error .incomplete →
      step s = .refused .incompleteDescriptor) ∧
    (s.inputs = .issue i :: rest → i.wellFormed = false → step s = .refused .illFormed)

/-- log 20: what withFetchWord places is what the very next step runs. -/
def Obligations.StepRunsPlacedTableWord : Prop :=
  ∀ (s : State) (nbits w : Nat) (i : Instr), decodeTableWord nbits w = some i →
    step (s.withFetchWord nbits w) = exec i { s with busy := false, uq := [] }

/-- R36: while BUSY = 1 the request port is not ready; a submission waits and the engine goes on, and the submit step is not
enabled (log 5). -/
def Obligations.SubmissionWaitsWhileBusy : Prop :=
  (∀ (s : State) (rest : List Input) (u : MicroOp) (us : List MicroOp) (m : State),
    s.busy = true → s.uq = u :: us → perform u s = .next m →
    ((∃ ws, s.inputs = .submit ws :: rest) ∨ (∃ i, s.inputs = .issue i :: rest)) →
    ∃ t, step s = .next t ∧ t.inputs = s.inputs ∧ t.uq = us ∧ t.lat = s.lat ∧ t.fault = s.fault ∧
      t.trace = m.trace) ∧
  (∀ (i : Instr) (s : State), s.busy = true → exec i s = .refused .portNotReady)

/-- R35, R36: the engine step performs the head; after the last one BUSY is 0, RESP is ok and SEQ has become READY. It is the
step when the outside world has no act left, when a submission waits because BUSY = 1, and when the act is to let the
engine go on, which is then taken (log 4). With UQ empty it changes nothing (log 17). -/
def Obligations.EngineStepFollowsQueue : Prop :=
  (∀ (s m : State) (u : MicroOp) (rest : List MicroOp) (left : List Input), s.uq = u :: rest → perform u s = .next m →
    (s.inputs = left ∧ left = [] ∨
     s.inputs = left ∧ s.busy = true ∧ ((∃ ws l, left = .submit ws :: l) ∨ (∃ i l, left = .issue i :: l)) ∨
     s.inputs = .engine :: left) →
    (rest ≠ [] → step s = .next { m with inputs := left, uq := rest }) ∧
    (rest = [] → step s = .next { m with
      inputs := left
      uq := []
      busy := false
      resp := .ok
      phase := if m.phase = .seq then .ready else m.phase })) ∧
  (∀ (s : State), s.uq = [] → s.busy = false →
    (s.inputs = [] → step s = .next s) ∧
    (∀ left, s.inputs = .engine :: left → step s = .next { s with inputs := left }))

/-- R33: the effect of each of the ten micro-operations, and nothing else. After a byte SCLK is idle and MOSI is a free
value; a comparator write opens the counter period when the counter runs; the free-value index advances (log 11, log 13). -/
def Obligations.MicroOperationEffects : Prop :=
  ∀ (s : State),
    (∀ b, perform (.cs b) s = .next { s with lines := { s.lines with cs := b }, trace := s.trace ++ [.cs b] }) ∧
    (∀ b, perform (.dc b) s = .next { s with lines := { s.lines with dc := b }, trace := s.trace ++ [.dc b] }) ∧
    (∀ b, perform (.rst b) s = .next { s with lines := { s.lines with rst := b }, trace := s.trace ++ [.rst b] }) ∧
    (∀ v, ∃ mosi, perform (.imm v) s = .next { s with
      lines := { s.lines with sclk := s.cfg.params.spiCpol, mosi := mosi }
      freeCount := s.freeCount + 1
      trace := s.trace ++ [.byte v] }) ∧
    (∀ i v, i < s.txlen → s.txbuf[i]? = some v → perform (.tx i) s = perform (.imm v) s) ∧
    (∀ i, s.lat.buf.toNat + i < 4294967296 →
      perform (.src i) s = perform (.imm (Memory.read s.mem (s.lat.buf.toNat + i))) s) ∧
    (∀ bs, bs.length ≤ s.cfg.params.txbufCap →
      perform (.fill bs) s = .next { s with txbuf := bs ++ s.txbuf.drop bs.length, txlen := bs.length }) ∧
    (∀ ms, perform (.delay ms) s = .next { s with tmr := ms, trace := s.trace ++ [.delay ms] }) ∧
    (∀ v, perform (.pwm v) s = .next { s with
      pwm := { s.pwm with cmp := v, fresh := s.pwm.on }
      freeCount := s.freeCount + 1
      trace := s.trace ++ [.pwm v] }) ∧
    perform .done s = .next { s with done := true, trace := s.trace ++ [.done] }

/-! Acceptance: the submit step of each operation, with the frame in the record. -/

/-- R36, R101, R88: XFER and PIXELS. -/
def Obligations.TransferAccepted : Prop :=
  ∀ (d : Bool) (buf len : Word) (i : Instr) (s : State), isTransfer d buf len i →
    s.busy = false → s.phase = .ready → buf.toNat + len.toNat ≤ 4294967296 →
    exec i s = .next { s with
      lat := { s.lat with op := 1, d := d, buf := buf, len := len }
      uq := [.cs false, .dc d] ++ (List.range len.toNat).map MicroOp.src ++ [.cs true]
      busy := true
      resp := .pending }

/-- R36, R111, R112, R88, R73: WREG and the panel commands (log 9 for INIT_SCRIPT_entry). -/
def Obligations.RegisterCommandAccepted : Prop :=
  ∀ (opc : Byte) (ps : List Word) (i : Instr) (s : State), isRegisterCommand s.cfg.params opc ps i →
    s.busy = false → s.phase = .ready → ps.length ≤ s.cfg.params.txbufCap →
    exec i s = .next { s with
      lat := { s.lat with op := 2, opc := opc, n := BitVec.ofNat 16 ps.length }
      uq := [.cs false, .dc false, .imm opc, .cs true] ++
        (if ps = [] then []
         else [.fill (ps.map (fun P => BitVec.ofNat 8 P.toNat)), .cs false, .dc true] ++
          (List.range ps.length).map MicroOp.tx ++ [.cs true])
      busy := true
      resp := .pending }

/-- R36, R121, R28: INIT. -/
def Obligations.InitAccepted : Prop :=
  ∀ (s : State), s.busy = false → s.phase = .cold →
    exec .init s = .next { s with
      lat := { s.lat with op := 3 }
      phase := .seq
      uq := [.rst true, .delay s.cfg.params.tRstMs, .rst false, .delay s.cfg.params.tRstMs, .rst true,
          .delay s.cfg.params.tRstMs] ++
        wregOps s.cfg.params.cmdSlpout [] ++ [.delay s.cfg.params.tSlpoutMs] ++
        (s.cfg.params.initScript.map (fun e => wregOps e.1 e.2)).flatten ++ wregOps s.cfg.params.cmdDispon []
      busy := true
      resp := .pending }

/-- R36, R140, R30: FLUSH. -/
def Obligations.FlushAccepted : Prop :=
  ∀ (x1 y1 x2 y2 : Half) (buf len : Word) (s : State),
    s.busy = false → s.phase = .ready → flushFits s.cfg.params x1 y1 x2 y2 buf len →
    exec (.flush x1 y1 x2 y2 buf len) s = .next { s with
      lat := { s.lat with op := 4, x1 := x1, y1 := y1, x2 := x2, y2 := y2, buf := buf, len := len }
      done := false
      uq := wregOps s.cfg.params.cmdCaset [hi8 x1, lo8 x1, hi8 x2, lo8 x2] ++
        wregOps s.cfg.params.cmdRaset
          [hi8 (y1 + BitVec.ofNat 16 s.cfg.params.yOffset), lo8 (y1 + BitVec.ofNat 16 s.cfg.params.yOffset),
           hi8 (y2 + BitVec.ofNat 16 s.cfg.params.yOffset), lo8 (y2 + BitVec.ofNat 16 s.cfg.params.yOffset)] ++
        wregOps s.cfg.params.cmdRamwr [] ++
        ([.cs false, .dc true] ++ (List.range len.toNat).map MicroOp.src ++ [.cs true]) ++ [.done]
      busy := true
      resp := .pending }

/-- R36, R156, R163: SETBL, in every PHASE. -/
def Obligations.SetblAccepted : Prop :=
  ∀ (level : Half) (s : State), s.busy = false → level.toNat ≤ 255 →
    exec (.setbl level) s = .next { s with
      lat := { s.lat with op := 5, level := level }
      uq := [.pwm (BitVec.ofNat 16 (level.toNat * level.toNat))]
      busy := true
      resp := .pending }

/-! Completion: each operation from its submission to its last micro-operation. -/

/-- R101, R102, R88: XFER and PIXELS run to their end. The transport call stands in TRACE, the bytes those of host memory
in ascending address order. -/
def Obligations.TransferRunsToEnd : Prop :=
  ∀ (d : Bool) (buf len : Word) (i : Instr) (s : State), isTransfer d buf len i →
    s.busy = false → s.phase = .ready → buf.toNat + len.toNat ≤ 4294967296 → s.inputs = [.issue i] →
    ∃ t, steps (1 + (3 + len.toNat)) s = .next t ∧ Finished s t ∧
      t.trace = s.trace ++ callEvents d (hostBytes s.mem buf.toNat len.toNat) ∧
      t.lines.cs = true ∧ t.lines.dc = d ∧ t.lines.rst = s.lines.rst ∧
      t.lat = { s.lat with op := 1, d := d, buf := buf, len := len } ∧
      t.txbuf = s.txbuf ∧ t.txlen = s.txlen ∧ t.pwm = s.pwm ∧ t.tmr = s.tmr ∧ t.done = s.done ∧ t.phase = .ready

/-- R71, R72, R73, R111, R112, R88: WREG and the panel commands run to their end (log 9 for INIT_SCRIPT_entry). -/
def Obligations.RegisterCommandRunsToEnd : Prop :=
  ∀ (opc : Byte) (ps : List Word) (i : Instr) (s : State), isRegisterCommand s.cfg.params opc ps i →
    i.wellFormed = true → s.busy = false → s.phase = .ready → ps.length ≤ s.cfg.params.txbufCap →
    s.inputs = [.issue i] →
    ∃ t, steps (1 + (if ps = [] then 4 else 8 + ps.length)) s = .next t ∧ Finished s t ∧
      t.trace = s.trace ++ [.cs false, .dc false, .byte opc, .cs true] ++
        (if ps = [] then []
         else [.cs false, .dc true] ++ ps.map (fun P => Event.byte (BitVec.ofNat 8 P.toNat)) ++ [.cs true]) ∧
      (ps = [] → t.txbuf = s.txbuf ∧ t.txlen = s.txlen ∧ t.lines.dc = false) ∧
      (ps ≠ [] → t.txbuf = ps.map (fun P => BitVec.ofNat 8 P.toNat) ++ s.txbuf.drop ps.length ∧
        t.txlen = ps.length ∧ t.lines.dc = true) ∧
      t.lines.cs = true ∧ t.lines.rst = s.lines.rst ∧
      t.lat = { s.lat with op := 2, opc := opc, n := BitVec.ofNat 16 ps.length } ∧
      t.pwm = s.pwm ∧ t.tmr = s.tmr ∧ t.done = s.done ∧ t.phase = .ready

/-- R121, R28, R129: INIT runs to its end. TMR keeps the last delay (log 12). -/
def Obligations.InitRunsToEnd : Prop :=
  ∀ (s : State), s.busy = false → s.phase = .cold → s.inputs = [.issue .init] →
    ∃ t, steps (1 + initLength s.cfg.params) s = .next t ∧ Finished s t ∧
      t.trace = s.trace ++ initEvents s.cfg.params ∧
      t.phase = .ready ∧ t.lines.cs = true ∧ t.lines.dc = false ∧ t.lines.rst = true ∧
      t.lat = { s.lat with op := 3 } ∧
      t.txbuf = scriptTxbuf s.cfg.params.initScript s.txbuf ∧ t.txlen = scriptTxlen s.cfg.params.initScript s.txlen ∧
      t.pwm = s.pwm ∧ t.tmr = s.cfg.params.tSlpoutMs ∧ t.done = s.done

/-- R140, R144, R145, R146: FLUSH runs to its end. -/
def Obligations.FlushRunsToEnd : Prop :=
  ∀ (x1 y1 x2 y2 : Half) (buf len : Word) (s : State),
    s.busy = false → s.phase = .ready → flushFits s.cfg.params x1 y1 x2 y2 buf len →
    s.inputs = [.issue (.flush x1 y1 x2 y2 buf len)] →
    ∃ t, steps (1 + (len.toNat + 32)) s = .next t ∧ Finished s t ∧
      t.trace = s.trace ++ flushEvents s.cfg.params x1 y1 x2 y2 (hostBytes s.mem buf.toNat len.toNat) ∧
      t.done = true ∧ t.lines.cs = true ∧ t.lines.dc = true ∧ t.lines.rst = s.lines.rst ∧
      t.lat = { s.lat with op := 4, x1 := x1, y1 := y1, x2 := x2, y2 := y2, buf := buf, len := len } ∧
      t.txbuf = be16 (offsetRow s.cfg.params y1) ++ be16 (offsetRow s.cfg.params y2) ++ s.txbuf.drop 4 ∧
      t.txlen = 4 ∧ t.pwm = s.pwm ∧ t.tmr = s.tmr ∧ t.phase = .ready

/-- R156, R157, R162: SETBL runs to its end; no line of the serial bus moves. -/
def Obligations.SetblRunsToEnd : Prop :=
  ∀ (level : Half) (s : State), s.busy = false → s.phase ≠ .seq → level.toNat ≤ 255 →
    s.inputs = [.issue (.setbl level)] →
    ∃ t v, steps 2 s = .next t ∧ Finished s t ∧ v.toNat = level.toNat * level.toNat ∧
      t.pwm.cmp = v ∧ t.pwm.ctr = s.pwm.ctr ∧ t.pwm.on = s.pwm.on ∧ t.trace = s.trace ++ [.pwm v] ∧
      t.lines = s.lines ∧ t.lat = { s.lat with op := 5, level := level } ∧
      t.txbuf = s.txbuf ∧ t.txlen = s.txlen ∧ t.tmr = s.tmr ∧ t.done = s.done ∧ t.phase = s.phase

/-- R219, R178, R181: from a state that keeps the invariant, every accepted operation reaches BUSY = 0 with RESP = ok after
exactly as many engine steps as its expansion has micro-operations, and BUSY is 1 until then. -/
def Obligations.AcceptedOperationFinishes : Prop :=
  ∀ (i : Instr) (s t : State), s.Inv → s.inputs = [] → exec i s = .next t → t.busy = true →
    (∃ u, steps t.uq.length t = .next u ∧ u.busy = false ∧ u.resp = .ok ∧ u.uq = [] ∧ u.lines.cs = true ∧
      u.fault = s.fault ∧ u.trace = s.trace ++ futureEvents s.mem t.lat.buf.toNat s.txbuf t.uq) ∧
    (∀ k, k < t.uq.length → ∃ v, steps k t = .next v ∧ v.busy = true ∧ v.resp = .pending)

/-- R88: FLUSH sends the events of CASET, RASET with the offset added, RAMWR and PIXELS, followed by DONE. -/
def Obligations.FlushEqualsItsPseudoOperations : Prop :=
  ∀ (x1 y1 x2 y2 : Half) (buf len : Word) (s : State),
    s.busy = false → s.phase = .ready → flushFits s.cfg.params x1 y1 x2 y2 buf len →
    ∃ t u, steps (1 + (len.toNat + 32)) { s with inputs := [.issue (.flush x1 y1 x2 y2 buf len)] } = .next t ∧
      steps (4 + (31 + len.toNat)) { s with inputs :=
        [.issue (.caset x1 x2), .issue (.raset (offsetRow s.cfg.params y1) (offsetRow s.cfg.params y2)),
         .issue .ramwr, .issue (.pixels buf len)] } = .next u ∧
      t.trace = u.trace ++ [.done] ∧ t.busy = false ∧ u.busy = false ∧ t.done = true ∧ u.done = s.done

/-- R148: the same FLUSH twice, with the same bytes in the buffer, adds the same events twice. -/
def Obligations.FlushIsIdempotent : Prop :=
  ∀ (x1 y1 x2 y2 : Half) (buf len : Word) (s : State),
    s.busy = false → s.phase = .ready → flushFits s.cfg.params x1 y1 x2 y2 buf len →
    ∃ t u es, steps (1 + (len.toNat + 32)) { s with inputs :=
        [.issue (.flush x1 y1 x2 y2 buf len), .issue (.flush x1 y1 x2 y2 buf len)] } = .next t ∧
      t.busy = false ∧ t.trace = s.trace ++ es ∧
      steps (1 + (len.toNat + 32)) t = .next u ∧ u.busy = false ∧ u.trace = s.trace ++ es ++ es

/-! Rejections, in the order of R173. -/

/-- R173, R174: XFER and PIXELS. -/
def Obligations.TransferRejections : Prop :=
  ∀ (d : Bool) (buf len : Word) (i : Instr) (s : State), isTransfer d buf len i → s.busy = false →
    (s.phase ≠ .ready → exec i s = .next { s with fault := s.fault ||| 0x02#8, resp := .err .notReady }) ∧
    (s.phase = .ready → 4294967296 < buf.toNat + len.toNat →
      exec i s = .next { s with fault := s.fault ||| 0x40#8, resp := .err .bufRange })

/-- R173, R174, R113: WREG and the panel commands (log 9 for INIT_SCRIPT_entry). -/
def Obligations.RegisterCommandRejections : Prop :=
  ∀ (opc : Byte) (ps : List Word) (i : Instr) (s : State), isRegisterCommand s.cfg.params opc ps i → s.busy = false →
    (s.phase ≠ .ready → exec i s = .next { s with fault := s.fault ||| 0x02#8, resp := .err .notReady }) ∧
    (s.phase = .ready → s.cfg.params.txbufCap < ps.length →
      exec i s = .next { s with fault := s.fault ||| 0x08#8, resp := .err .paramOverflow })

/-- R128, R173: INIT is accepted only when PHASE is COLD; otherwise it is rejected with SeqRerun and emits nothing; only
hardware reset brings PHASE back to COLD. -/
def Obligations.InitRejection : Prop :=
  (∀ (s : State), s.busy = false → s.phase ≠ .cold →
    exec .init s = .next { s with fault := s.fault ||| 0x04#8, resp := .err .seqRerun }) ∧
  (∀ (s t : State), exec .init s = .next t → t.busy = true → s.phase = .cold) ∧
  (∀ (s t : State), step s = .next t → s.phase ≠ .cold → t.phase = .cold → ∃ u rest, s.inputs = .reset u :: rest)

/-- R141, R142, R173, R174: FLUSH, in the order NotReady, BadRect, LengthMismatch, BufRange. -/
def Obligations.FlushRejections : Prop :=
  ∀ (x1 y1 x2 y2 : Half) (buf len : Word) (s : State), s.busy = false →
    (s.phase ≠ .ready →
      exec (.flush x1 y1 x2 y2 buf len) s = .next { s with fault := s.fault ||| 0x02#8, resp := .err .notReady }) ∧
    (s.phase = .ready → ¬ validRect s.cfg.params x1 y1 x2 y2 →
      exec (.flush x1 y1 x2 y2 buf len) s = .next { s with fault := s.fault ||| 0x10#8, resp := .err .badRect }) ∧
    (s.phase = .ready → validRect s.cfg.params x1 y1 x2 y2 →
      len.toNat ≠ (x2.toNat - x1.toNat + 1) * (y2.toNat - y1.toNat + 1) * s.cfg.params.bytesPerPixel →
      exec (.flush x1 y1 x2 y2 buf len) s =
        .next { s with fault := s.fault ||| 0x20#8, resp := .err .lengthMismatch }) ∧
    (s.phase = .ready → validRect s.cfg.params x1 y1 x2 y2 →
      len.toNat = (x2.toNat - x1.toNat + 1) * (y2.toNat - y1.toNat + 1) * s.cfg.params.bytesPerPixel →
      4294967296 < buf.toNat + len.toNat →
      exec (.flush x1 y1 x2 y2 buf len) s = .next { s with fault := s.fault ||| 0x40#8, resp := .err .bufRange })

/-- R158: the block rejects a level above 255 with LevelRange and writes nothing. -/
def Obligations.SetblRejection : Prop :=
  ∀ (level : Half) (s : State), s.busy = false → 255 < level.toNat →
    exec (.setbl level) s = .next { s with fault := s.fault ||| 0x80#8, resp := .err .levelRange }

/-- R171, R175: a submission that is not accepted changes one FAULT bit and RESP and nothing else. -/
def Obligations.RejectionChangesOnlyFaultAndResp : Prop :=
  ∀ (i : Instr) (s t : State), exec i s = .next t → t.busy = false →
    ∃ c : Cause, t = { s with fault := s.fault ||| BitVec.twoPow 8 c.code, resp := .err c }

/-- R31, R176: a FAULT bit is set only when an operation is rejected for its cause, and only hardware reset clears one. -/
def Obligations.FaultBitsAreSticky : Prop :=
  ∀ (s t : State), step s = .next t →
    (∀ u rest, s.inputs = .reset u :: rest → t.fault = 0x00#8) ∧
    ((∀ u rest, s.inputs ≠ .reset u :: rest) →
      (∀ k, s.fault.getLsbD k = true → t.fault.getLsbD k = true) ∧
      (t.fault = s.fault ∨
        ∃ c : Cause, t.fault = s.fault ||| BitVec.twoPow 8 c.code ∧ t.resp = .err c ∧ s.busy = false))

/-! Frames: what each operation's submit step leaves unchanged. -/

/-- R26, R27, R36, R171: XFER and PIXELS load only OP, D, BUF and LEN; DONE and PHASE stay. -/
def Obligations.TransferFrame : Prop :=
  ∀ (d : Bool) (buf len : Word) (i : Instr) (s t : State), isTransfer d buf len i → exec i s = .next t →
    SubmissionFrame s t ∧ t.done = s.done ∧ t.phase = s.phase ∧
    t.lat.opc = s.lat.opc ∧ t.lat.n = s.lat.n ∧ t.lat.level = s.lat.level ∧ t.lat.x1 = s.lat.x1 ∧
    t.lat.y1 = s.lat.y1 ∧ t.lat.x2 = s.lat.x2 ∧ t.lat.y2 = s.lat.y2

/-- R26, R27, R36, R171: WREG and the panel commands load only OP, OPC and N; DONE and PHASE stay (log 9 for
INIT_SCRIPT_entry). -/
def Obligations.RegisterCommandFrame : Prop :=
  ∀ (opc : Byte) (ps : List Word) (i : Instr) (s t : State), isRegisterCommand s.cfg.params opc ps i →
    exec i s = .next t →
    SubmissionFrame s t ∧ t.done = s.done ∧ t.phase = s.phase ∧
    t.lat.d = s.lat.d ∧ t.lat.level = s.lat.level ∧ t.lat.x1 = s.lat.x1 ∧ t.lat.y1 = s.lat.y1 ∧
    t.lat.x2 = s.lat.x2 ∧ t.lat.y2 = s.lat.y2 ∧ t.lat.buf = s.lat.buf ∧ t.lat.len = s.lat.len

/-- R26, R27, R28, R36, R171: INIT loads only OP; DONE stays; PHASE changes only when it is accepted. -/
def Obligations.InitFrame : Prop :=
  ∀ (s t : State), exec .init s = .next t →
    SubmissionFrame s t ∧ t.done = s.done ∧ t.lat = { s.lat with op := t.lat.op } ∧
    (t.busy = false → t.phase = s.phase)

/-- R26, R27, R30, R36, R171: FLUSH loads only OP, the bounds, BUF and LEN; PHASE stays; DONE changes only when it is
accepted. -/
def Obligations.FlushFrame : Prop :=
  ∀ (x1 y1 x2 y2 : Half) (buf len : Word) (s t : State), exec (.flush x1 y1 x2 y2 buf len) s = .next t →
    SubmissionFrame s t ∧ t.phase = s.phase ∧ (t.busy = false → t.done = s.done) ∧
    t.lat.d = s.lat.d ∧ t.lat.opc = s.lat.opc ∧ t.lat.n = s.lat.n ∧ t.lat.level = s.lat.level

/-- R26, R27, R36, R156, R171: SETBL loads only OP and LEVEL; DONE and PHASE stay. -/
def Obligations.SetblFrame : Prop :=
  ∀ (level : Half) (s t : State), exec (.setbl level) s = .next t →
    SubmissionFrame s t ∧ t.done = s.done ∧ t.phase = s.phase ∧
    t.lat = { s.lat with op := t.lat.op, level := t.lat.level }

/-! Invariants. -/

/-- R44: every state after power-on keeps the invariant and the start-up sequence, whatever R44 leaves unspecified. -/
def Obligations.PowerOnKeepsInvariants : Prop :=
  (∀ (c : Config) (u : ResetLevels), (State.powerOn c u).Inv ∧ (State.powerOn c u).SequencerInv) ∧
  State.reset.Inv ∧ State.reset.SequencerInv

/-- R29, R32, R33, R37, R106: every step keeps the invariant. -/
def Obligations.StepKeepsInvariant : Prop :=
  ∀ (s t : State), s.Inv → step s = .next t → t.Inv

/-- R178, R105: no fault of the model is raised from a state that keeps the invariant. -/
def Obligations.InvariantStepNeverFaults : Prop :=
  ∀ (s : State) (f : Fault), s.Inv → step s ≠ .fault f

/-- R127, R128: every step keeps the start-up sequence. -/
def Obligations.StepKeepsSequencerInvariant : Prop :=
  ∀ (s t : State), s.Inv → s.SequencerInv → step s = .next t → t.SequencerInv

/-- R127: once PHASE is READY, TRACE (PWM events aside) begins with the one reset pulse, sleep-out and its delay, and no
other RST or DELAY event stands before or after the four delays of INIT. SequencerInv is the invariant above. -/
def Obligations.StartUpOrder : Prop :=
  ∀ (s : State), s.SequencerInv → s.phase = .ready →
    10 ≤ s.cfg.params.tRstMs ∧ 120 ≤ s.cfg.params.tSlpoutMs ∧
    ∃ later, s.trace.filter Event.notPwm =
        [.rst true, .delay s.cfg.params.tRstMs, .rst false, .delay s.cfg.params.tRstMs, .rst true,
         .delay s.cfg.params.tRstMs, .cs false, .dc false, .byte s.cfg.params.cmdSlpout, .cs true,
         .delay s.cfg.params.tSlpoutMs] ++ later ∧
      (∀ b, Event.rst b ∉ later) ∧ (∀ ms, Event.delay ms ∉ later)

/-- R106: where an event may stand in TRACE. Inv is the invariant above. -/
def Obligations.WireDiscipline : Prop :=
  ∀ (s : State) (pre post : List Event) (e : Event), s.Inv → s.trace = pre ++ e :: post →
    (∀ v, e = .byte v → csLevel pre = false) ∧
    (∀ d, e = .dc d → pre.getLast? = some (.cs false)) ∧
    (e = .cs false → csLevel pre = true ∧ (post = [] ∨ ∃ d, post.head? = some (.dc d))) ∧
    (e = .cs true → csLevel pre = false) ∧
    (((∃ b, e = .rst b) ∨ (∃ ms, e = .delay ms) ∨ (∃ v, e = .pwm v) ∨ e = .done) → csLevel pre = true) ∧
    s.lines.cs = csLevel s.trace

/-! What a step can change. -/

/-- R28: PHASE goes from COLD to SEQ when INIT is accepted and from SEQ to READY when its last micro-operation has been
performed; no other transition exists but hardware reset's; the value 3 never occurs. -/
def Obligations.PhaseTransitions : Prop :=
  ∀ (s t : State), step s = .next t → t.phase.bits ≠ 3 ∧
    (t.phase = s.phase ∨
     (s.phase = .cold ∧ t.phase = .seq ∧ s.busy = false ∧ t.lat.op = 3 ∧ t.uq = expandInit s.cfg.params) ∨
     (s.phase = .seq ∧ t.phase = .ready ∧ s.uq.length = 1 ∧ t.uq = []) ∨
     (t.phase = .cold ∧ ∃ u rest, s.inputs = .reset u :: rest))

/-- R30: DONE is set to 1 by uDONE, the last micro-operation of FLUSH and of no other operation, and cleared to 0 when the
next FLUSH is accepted; only hardware reset changes it otherwise. -/
def Obligations.DoneTransitions : Prop :=
  (∀ (s t : State), step s = .next t →
    t.done = s.done ∨
    (t.done = true ∧ s.uq.head? = some .done) ∨
    (t.done = false ∧ s.busy = false ∧ t.busy = true ∧ t.lat.op = 4) ∨
    (t.done = false ∧ ∃ u rest, s.inputs = .reset u :: rest)) ∧
  (∀ (s t : State), perform .done s = .next t → t.done = true) ∧
  (∀ (x1 y1 x2 y2 : Half) (buf len : Word) (s t : State), exec (.flush x1 y1 x2 y2 buf len) s = .next t →
    t.busy = true → t.done = false ∧ t.uq.getLast? = some .done) ∧
  (∀ d len, MicroOp.done ∉ expandXfer d len) ∧ (∀ opc ps, MicroOp.done ∉ expandWreg opc ps) ∧
  (∀ p, MicroOp.done ∉ expandInit p) ∧ (∀ level, MicroOp.done ∉ expandSetbl level)

/-- R38: PWM_CMP is written only by uPWM, which only SETBL's expansion contains; the host reads it through S2. -/
def Obligations.ComparatorWrittenOnlyByUPwm : Prop :=
  (∀ (s t : State), step s = .next t →
    t.pwm.cmp = s.pwm.cmp ∨
    (∃ v, s.uq.head? = some (.pwm v) ∧ t.pwm.cmp = v) ∨
    (t.pwm.cmp = 0 ∧ ∃ u rest, s.inputs = .reset u :: rest)) ∧
  (∀ v d len, MicroOp.pwm v ∉ expandXfer d len) ∧ (∀ v opc ps, MicroOp.pwm v ∉ expandWreg opc ps) ∧
  (∀ v p, MicroOp.pwm v ∉ expandInit p) ∧ (∀ v p x1 y1 x2 y2 len, MicroOp.pwm v ∉ expandFlush p x1 y1 x2 y2 len) ∧
  (∀ level, ∃ v, expandSetbl level = [.pwm v]) ∧ (∀ s : State, (statusWord .s2 s).toNat = s.pwm.cmp.toNat)

/-- R23: RST is written only by uRST, which only INIT's expansion contains. -/
def Obligations.ResetLineWrittenOnlyByURst : Prop :=
  (∀ (s t : State), step s = .next t →
    t.lines.rst = s.lines.rst ∨
    (∃ b, s.uq.head? = some (.rst b) ∧ t.lines.rst = b) ∨
    (∃ u rest, s.inputs = .reset u :: rest)) ∧
  (∀ b d len, MicroOp.rst b ∉ expandXfer d len) ∧ (∀ b opc ps, MicroOp.rst b ∉ expandWreg opc ps) ∧
  (∀ b level, MicroOp.rst b ∉ expandSetbl level) ∧ (∀ b p x1 y1 x2 y2 len, MicroOp.rst b ∉ expandFlush p x1 y1 x2 y2 len)

/-- R53, R7: the block never writes host memory and no step writes the parameters. The host's own store (R51, R52, R211)
always completes, writes the byte it names and no other, and leaves every field of the block as it was: that clause is the
model's choice, in which a store is an act of its own (log 4). -/
def Obligations.HostMemoryAndParametersAreNotWritten : Prop :=
  ∀ (s : State), Memory.wf s.mem = true →
    (∀ t, step s = .next t →
      t.cfg = s.cfg ∧
      ((∀ a v rest, s.inputs ≠ .store a v :: rest) → ∀ b, Memory.read t.mem b = Memory.read s.mem b)) ∧
    (∀ a v rest, s.inputs = .store a v :: rest →
      ∃ m, step s = .next { s with inputs := rest, mem := m } ∧ Memory.read m a.toNat = v ∧
        ∀ b, b ≠ a.toNat → Memory.read m b = Memory.read s.mem b)

/-- R41: nothing removes or reorders an event of TRACE within an epoch (hardware reset starts the next: log 14); a step
appends at most one. -/
def Obligations.TraceOnlyGrows : Prop :=
  ∀ (s t : State), step s = .next t → (∀ u rest, s.inputs ≠ .reset u :: rest) →
    ∃ es, t.trace = s.trace ++ es ∧ es.length ≤ 1

/-! Data. -/

/-- R137, R138: the column and row bytes an accepted FLUSH sends are the big-endian 16-bit forms of `(x1, x2)` and
`(y1 + offset, y2 + offset)`, start bound first, with no carry. -/
def Obligations.WindowBytesAreBigEndian : Prop :=
  ∀ (x1 y1 x2 y2 : Half) (buf len : Word) (s t : State), exec (.flush x1 y1 x2 y2 buf len) s = .next t →
    t.busy = true →
    ∃ cols rows, t.uq[4]? = some (.fill cols) ∧ t.uq[16]? = some (.fill rows) ∧
      cols.map BitVec.toNat = [x1.toNat / 256, x1.toNat % 256, x2.toNat / 256, x2.toNat % 256] ∧
      rows.map BitVec.toNat =
        [(y1.toNat + s.cfg.params.yOffset) / 256, (y1.toNat + s.cfg.params.yOffset) % 256,
         (y2.toNat + s.cfg.params.yOffset) / 256, (y2.toNat + s.cfg.params.yOffset) % 256] ∧
      y2.toNat + s.cfg.params.yOffset ≤ 65535

/-- R157: SETBL writes exactly the square of the level, at most 65025, and strictly more for a higher level. -/
def Obligations.SquaringLaw : Prop :=
  ∀ (a b : Half) (s : State), a.toNat < b.toNat → b.toNat ≤ 255 → s.busy = false →
    ∃ t u, steps 2 { s with inputs := [.issue (.setbl a)] } = .next t ∧
      steps 2 { s with inputs := [.issue (.setbl b)] } = .next u ∧
      t.pwm.cmp.toNat = a.toNat * a.toNat ∧ u.pwm.cmp.toNat = b.toNat * b.toNat ∧
      u.pwm.cmp.toNat ≤ 65025 ∧ t.pwm.cmp.toNat < u.pwm.cmp.toNat

/-- R129: the length of INIT's expansion; one uFILL, which emits no event, for each script entry with parameters. -/
def Obligations.InitExpansionLength : Prop :=
  ∀ (p : Params),
    (expandInit p).length =
      6 + 4 + 1 + (p.initScript.map (fun e => if e.2.length = 0 then 4 else 8 + e.2.length)).sum + 4 ∧
    (initEvents p).length + (p.initScript.filter (fun e => decide (e.2 ≠ []))).length = (expandInit p).length ∧
    (expandInit p).countP MicroOp.isFill = (p.initScript.filter (fun e => decide (e.2 ≠ []))).length

/-- R58, R55: an XFER or FLUSH reads the bytes `BUF + 0` to `BUF + LEN - 1`, each exactly once, in ascending order. -/
def Obligations.BufferReadOnceInOrder : Prop :=
  (∀ d len, (expandXfer d len).filterMap MicroOp.srcIndex = List.range len.toNat) ∧
  (∀ p x1 y1 x2 y2 len, (expandFlush p x1 y1 x2 y2 len).filterMap MicroOp.srcIndex = List.range len.toNat) ∧
  (∀ opc ps, (expandWreg opc ps).filterMap MicroOp.srcIndex = []) ∧
  (∀ p, (expandInit p).filterMap MicroOp.srcIndex = []) ∧
  (∀ level, (expandSetbl level).filterMap MicroOp.srcIndex = [])

/-- R42, R28: the four status words, read with no side effect whatever BUSY is, PHASE as 0, 1, 2 for COLD, SEQ, READY; a write has no effect. Readings are recorded in
the model's own field readback (log 18). -/
def Obligations.StatusRegisters : Prop :=
  ∀ (s : State) (r : StatusReg) (v : Word) (rest : List Input),
    (s.phase = .cold → (statusWord .s0 s).toNat = s.busy.toNat + 2 * s.done.toNat + 4 * 0) ∧
    (s.phase = .seq → (statusWord .s0 s).toNat = s.busy.toNat + 2 * s.done.toNat + 4 * 1) ∧
    (s.phase = .ready → (statusWord .s0 s).toNat = s.busy.toNat + 2 * s.done.toNat + 4 * 2) ∧
    (statusWord .s1 s).toNat = s.fault.toNat ∧
    (statusWord .s2 s).toNat = s.pwm.cmp.toNat ∧
    (s.resp = .none → (statusWord .s3 s).toNat = 0) ∧ (s.resp = .pending → (statusWord .s3 s).toNat = 1) ∧
    (s.resp = .ok → (statusWord .s3 s).toNat = 2) ∧
    (∀ c, s.resp = .err c → (statusWord .s3 s).toNat = 3 + 256 * c.code) ∧
    (s.inputs = .readStatus r :: rest →
      step s = .next { s with inputs := rest, readback := s.readback ++ [statusWord r s] }) ∧
    (s.inputs = .writeStatus r v :: rest → step s = .next { s with inputs := rest })

/-- R44, R200, R203: hardware reset, at any time, for every choice of what R44 leaves unspecified; a running operation is
abandoned. That TRACE is cleared is one of the two ways R203 allows (log 14). -/
def Obligations.HardwareReset : Prop :=
  ∀ (s : State) (u : ResetLevels) (rest : List Input), s.inputs = .reset u :: rest →
    ∃ t, step s = .next t ∧ t.phase = .cold ∧ t.busy = false ∧ t.done = false ∧ t.fault = 0x00#8 ∧ t.resp = .none ∧
      t.uq = [] ∧ t.lines.cs = true ∧ t.pwm.cmp = 0x0000#16 ∧ t.txlen = 0 ∧ t.tmr = 0 ∧ t.trace = [] ∧
      (t.pwm.on = true → t.bl = false) ∧ t.cfg = s.cfg ∧ (∀ a, Memory.read t.mem a = Memory.read s.mem a) ∧
      t.lines.dc = u.dc ∧ t.lines.rst = u.rst ∧ t.lines.sclk = u.sclk ∧ t.lines.mosi = u.mosi ∧ t.lat = u.lat ∧
      t.txbuf = u.txbufFor s.cfg.params.txbufCap ∧ t.pwm.ctr = u.pwmCtr

/-- R39, R160: over one whole counter period that begins after the write, BL is high for `min(PWM_CMP, PWM_TOP + 1)` of
the `PWM_TOP + 1` counts, and the counter is back at 0. The compare form is the spec's general knowledge (G3; log 13). -/
def Obligations.BacklightDutyCycle : Prop :=
  ∀ (s : State), s.pwm.on = true → s.pwm.fresh = false → s.pwm.ctr = 0 →
    ((List.range (s.cfg.params.pwmTop.toNat + 1)).filter (fun k => (pwmTicks k s).bl)).length =
      min s.pwm.cmp.toNat (s.cfg.params.pwmTop.toNat + 1) ∧
    (pwmTicks (s.cfg.params.pwmTop.toNat + 1) s).pwm.ctr = 0

/-- R145, R144: every accepted FLUSH adds exactly six calls and one event to calls(TRACE). -/
def Obligations.FlushAddsSixCalls : Prop :=
  ∀ (x1 y1 x2 y2 : Half) (buf len : Word) (s : State), s.Inv →
    s.busy = false → s.phase = .ready → flushFits s.cfg.params x1 y1 x2 y2 buf len →
    s.inputs = [.issue (.flush x1 y1 x2 y2 buf len)] →
    ∃ t, steps (1 + (len.toNat + 32)) s = .next t ∧ t.busy = false ∧
      calls t.trace = calls s.trace ++
        [.call false [s.cfg.params.cmdCaset], .call true (windowBytes x1 x2),
         .call false [s.cfg.params.cmdRaset],
         .call true (windowBytes (offsetRow s.cfg.params y1) (offsetRow s.cfg.params y2)),
         .call false [s.cfg.params.cmdRamwr], .call true (hostBytes s.mem buf.toNat len.toNat), .event .done]

/-- R72, R114: a command with no parameters adds exactly one transport call, a command with `n > 0` parameters exactly two,
of lengths 1 and `n`, never coalesced (log 9 for INIT_SCRIPT_entry). -/
def Obligations.RegisterCommandAddsOneOrTwoCalls : Prop :=
  ∀ (opc : Byte) (ps : List Word) (i : Instr) (s : State), s.Inv → isRegisterCommand s.cfg.params opc ps i →
    i.wellFormed = true → s.busy = false → s.phase = .ready → ps.length ≤ s.cfg.params.txbufCap →
    s.inputs = [.issue i] →
    ∃ t, steps (1 + commandLength ps.length) s = .next t ∧ t.busy = false ∧
      (ps = [] → calls t.trace = calls s.trace ++ [.call false [opc]]) ∧
      (ps ≠ [] → calls t.trace = calls s.trace ++
        [.call false [opc], .call true (ps.map (fun P => BitVec.ofNat 8 P.toNat))])

/-- R8, R180: a record that breaks a constraint is not a configuration; one that meets them all is. -/
def Obligations.ConfigMeetsConstraints : Prop :=
  ∀ (p : Params),
    ((4 ≤ p.txbufCap ∧ (∀ e ∈ p.initScript, e.2.length ≤ p.txbufCap) ∧ 1 ≤ p.hres ∧ p.hres ≤ 65536 ∧ 1 ≤ p.vres ∧
      p.vres + p.yOffset ≤ 65536 ∧ 1 ≤ p.bytesPerPixel ∧ 10 ≤ p.tRstMs ∧ 120 ≤ p.tSlpoutMs) →
      ∃ c, Config.build p = some c ∧ c.params = p) ∧
    (¬ (4 ≤ p.txbufCap ∧ (∀ e ∈ p.initScript, e.2.length ≤ p.txbufCap) ∧ 1 ≤ p.hres ∧ p.hres ≤ 65536 ∧ 1 ≤ p.vres ∧
      p.vres + p.yOffset ≤ 65536 ∧ 1 ≤ p.bytesPerPixel ∧ 10 ≤ p.tRstMs ∧ 120 ≤ p.tSlpoutMs) →
      Config.build p = none)

/-! The PWM counter, through the step. -/

/-- R39, R206: the steps of the counter. Set up by the platform, it counts 0, 1, ..., PWM_TOP, 0, ...; before that it does not
count. That set-up and each count are acts of the outside world, that a wrap closes an open period and that the free-value
index advances are the model's choice (log 4, log 13), and so is a count above PWM_TOP, whose 16-bit overflow leaves an open
period open (log 23, log 26). That set-up keeps PWM_CTR, which does not count before it, is the model's choice too (log 27). -/
def Obligations.PwmActsStepTheCounter : Prop :=
  ∀ (s : State) (rest : List Input),
    (s.inputs = .pwmStart :: rest → step s = .next { s with inputs := rest, pwm := { s.pwm with on := true } }) ∧
    (s.inputs = .pwmTick :: rest → s.pwm.on = false → step s = .next { s with inputs := rest }) ∧
    (s.inputs = .pwmTick :: rest → s.pwm.on = true → s.pwm.ctr ≠ s.cfg.params.pwmTop →
      step s = .next { s with
        inputs := rest
        pwm := { s.pwm with ctr := s.pwm.ctr + 1 }
        freeCount := s.freeCount + 1 }) ∧
    (s.inputs = .pwmTick :: rest → s.pwm.on = true → s.pwm.ctr = s.cfg.params.pwmTop →
      step s = .next { s with
        inputs := rest
        pwm := { s.pwm with ctr := 0x0000#16, fresh := false }
        freeCount := s.freeCount + 1 })

/-- R39: "no operation reads or writes" PWM_CTR: it changes only when the counter counts, and at hardware reset; and only the
platform sets the counter up (R206; log 13, log 14). That PWM_CTR does not count before its set-up, and that the set-up keeps
its value, is the model's choice, which R39 and R206 do not give (log 27). -/
def Obligations.CounterWrittenOnlyByItsOwnActs : Prop :=
  ∀ (s t : State), step s = .next t →
    (t.pwm.ctr = s.pwm.ctr ∨
     (s.pwm.on = true ∧ ∃ rest, s.inputs = .pwmTick :: rest) ∨
     (∃ u rest, s.inputs = .reset u :: rest ∧ t.pwm.ctr = u.pwmCtr)) ∧
    (t.pwm.on = s.pwm.on ∨ (t.pwm.on = true ∧ ∃ rest, s.inputs = .pwmStart :: rest))
end

