-- ==== Sys2Proof/Laws/State.lean ====
section
/-! SUPPORT. What each state update does to each field of State: one lemma per field, so that no later proof unfolds an
update. -/

namespace Sys2Proof.Machine

/-! emit -/

@[simp] theorem emit_cfg (s : State) (e : Event) : (s.emit e).cfg = s.cfg := rfl
@[simp] theorem emit_lines (s : State) (e : Event) : (s.emit e).lines = s.lines := rfl
@[simp] theorem emit_lat (s : State) (e : Event) : (s.emit e).lat = s.lat := rfl
@[simp] theorem emit_phase (s : State) (e : Event) : (s.emit e).phase = s.phase := rfl
@[simp] theorem emit_busy (s : State) (e : Event) : (s.emit e).busy = s.busy := rfl
@[simp] theorem emit_done (s : State) (e : Event) : (s.emit e).done = s.done := rfl
@[simp] theorem emit_fault (s : State) (e : Event) : (s.emit e).fault = s.fault := rfl
@[simp] theorem emit_resp (s : State) (e : Event) : (s.emit e).resp = s.resp := rfl
@[simp] theorem emit_uq (s : State) (e : Event) : (s.emit e).uq = s.uq := rfl
@[simp] theorem emit_txbuf (s : State) (e : Event) : (s.emit e).txbuf = s.txbuf := rfl
@[simp] theorem emit_txlen (s : State) (e : Event) : (s.emit e).txlen = s.txlen := rfl
@[simp] theorem emit_pwm (s : State) (e : Event) : (s.emit e).pwm = s.pwm := rfl
@[simp] theorem emit_tmr (s : State) (e : Event) : (s.emit e).tmr = s.tmr := rfl
@[simp] theorem emit_trace (s : State) (e : Event) : (s.emit e).trace = s.trace ++ [e] := rfl
@[simp] theorem emit_mem (s : State) (e : Event) : (s.emit e).mem = s.mem := rfl
@[simp] theorem emit_inputs (s : State) (e : Event) : (s.emit e).inputs = s.inputs := rfl
@[simp] theorem emit_readback (s : State) (e : Event) : (s.emit e).readback = s.readback := rfl
@[simp] theorem emit_freeCount (s : State) (e : Event) : (s.emit e).freeCount = s.freeCount := rfl

/-! setCs -/

@[simp] theorem setCs_cfg (s : State) (b : Bool) : (s.setCs b).cfg = s.cfg := rfl
@[simp] theorem setCs_lines (s : State) (b : Bool) : (s.setCs b).lines = { s.lines with cs := b } := rfl
@[simp] theorem setCs_lat (s : State) (b : Bool) : (s.setCs b).lat = s.lat := rfl
@[simp] theorem setCs_phase (s : State) (b : Bool) : (s.setCs b).phase = s.phase := rfl
@[simp] theorem setCs_busy (s : State) (b : Bool) : (s.setCs b).busy = s.busy := rfl
@[simp] theorem setCs_done (s : State) (b : Bool) : (s.setCs b).done = s.done := rfl
@[simp] theorem setCs_fault (s : State) (b : Bool) : (s.setCs b).fault = s.fault := rfl
@[simp] theorem setCs_resp (s : State) (b : Bool) : (s.setCs b).resp = s.resp := rfl
@[simp] theorem setCs_uq (s : State) (b : Bool) : (s.setCs b).uq = s.uq := rfl
@[simp] theorem setCs_txbuf (s : State) (b : Bool) : (s.setCs b).txbuf = s.txbuf := rfl
@[simp] theorem setCs_txlen (s : State) (b : Bool) : (s.setCs b).txlen = s.txlen := rfl
@[simp] theorem setCs_pwm (s : State) (b : Bool) : (s.setCs b).pwm = s.pwm := rfl
@[simp] theorem setCs_tmr (s : State) (b : Bool) : (s.setCs b).tmr = s.tmr := rfl
@[simp] theorem setCs_trace (s : State) (b : Bool) : (s.setCs b).trace = s.trace := rfl
@[simp] theorem setCs_mem (s : State) (b : Bool) : (s.setCs b).mem = s.mem := rfl
@[simp] theorem setCs_inputs (s : State) (b : Bool) : (s.setCs b).inputs = s.inputs := rfl
@[simp] theorem setCs_readback (s : State) (b : Bool) : (s.setCs b).readback = s.readback := rfl
@[simp] theorem setCs_freeCount (s : State) (b : Bool) : (s.setCs b).freeCount = s.freeCount := rfl

/-! setDc -/

@[simp] theorem setDc_cfg (s : State) (b : Bool) : (s.setDc b).cfg = s.cfg := rfl
@[simp] theorem setDc_lines (s : State) (b : Bool) : (s.setDc b).lines = { s.lines with dc := b } := rfl
@[simp] theorem setDc_lat (s : State) (b : Bool) : (s.setDc b).lat = s.lat := rfl
@[simp] theorem setDc_phase (s : State) (b : Bool) : (s.setDc b).phase = s.phase := rfl
@[simp] theorem setDc_busy (s : State) (b : Bool) : (s.setDc b).busy = s.busy := rfl
@[simp] theorem setDc_done (s : State) (b : Bool) : (s.setDc b).done = s.done := rfl
@[simp] theorem setDc_fault (s : State) (b : Bool) : (s.setDc b).fault = s.fault := rfl
@[simp] theorem setDc_resp (s : State) (b : Bool) : (s.setDc b).resp = s.resp := rfl
@[simp] theorem setDc_uq (s : State) (b : Bool) : (s.setDc b).uq = s.uq := rfl
@[simp] theorem setDc_txbuf (s : State) (b : Bool) : (s.setDc b).txbuf = s.txbuf := rfl
@[simp] theorem setDc_txlen (s : State) (b : Bool) : (s.setDc b).txlen = s.txlen := rfl
@[simp] theorem setDc_pwm (s : State) (b : Bool) : (s.setDc b).pwm = s.pwm := rfl
@[simp] theorem setDc_tmr (s : State) (b : Bool) : (s.setDc b).tmr = s.tmr := rfl
@[simp] theorem setDc_trace (s : State) (b : Bool) : (s.setDc b).trace = s.trace := rfl
@[simp] theorem setDc_mem (s : State) (b : Bool) : (s.setDc b).mem = s.mem := rfl
@[simp] theorem setDc_inputs (s : State) (b : Bool) : (s.setDc b).inputs = s.inputs := rfl
@[simp] theorem setDc_readback (s : State) (b : Bool) : (s.setDc b).readback = s.readback := rfl
@[simp] theorem setDc_freeCount (s : State) (b : Bool) : (s.setDc b).freeCount = s.freeCount := rfl

/-! setRst -/

@[simp] theorem setRst_cfg (s : State) (b : Bool) : (s.setRst b).cfg = s.cfg := rfl
@[simp] theorem setRst_lines (s : State) (b : Bool) : (s.setRst b).lines = { s.lines with rst := b } := rfl
@[simp] theorem setRst_lat (s : State) (b : Bool) : (s.setRst b).lat = s.lat := rfl
@[simp] theorem setRst_phase (s : State) (b : Bool) : (s.setRst b).phase = s.phase := rfl
@[simp] theorem setRst_busy (s : State) (b : Bool) : (s.setRst b).busy = s.busy := rfl
@[simp] theorem setRst_done (s : State) (b : Bool) : (s.setRst b).done = s.done := rfl
@[simp] theorem setRst_fault (s : State) (b : Bool) : (s.setRst b).fault = s.fault := rfl
@[simp] theorem setRst_resp (s : State) (b : Bool) : (s.setRst b).resp = s.resp := rfl
@[simp] theorem setRst_uq (s : State) (b : Bool) : (s.setRst b).uq = s.uq := rfl
@[simp] theorem setRst_txbuf (s : State) (b : Bool) : (s.setRst b).txbuf = s.txbuf := rfl
@[simp] theorem setRst_txlen (s : State) (b : Bool) : (s.setRst b).txlen = s.txlen := rfl
@[simp] theorem setRst_pwm (s : State) (b : Bool) : (s.setRst b).pwm = s.pwm := rfl
@[simp] theorem setRst_tmr (s : State) (b : Bool) : (s.setRst b).tmr = s.tmr := rfl
@[simp] theorem setRst_trace (s : State) (b : Bool) : (s.setRst b).trace = s.trace := rfl
@[simp] theorem setRst_mem (s : State) (b : Bool) : (s.setRst b).mem = s.mem := rfl
@[simp] theorem setRst_inputs (s : State) (b : Bool) : (s.setRst b).inputs = s.inputs := rfl
@[simp] theorem setRst_readback (s : State) (b : Bool) : (s.setRst b).readback = s.readback := rfl
@[simp] theorem setRst_freeCount (s : State) (b : Bool) : (s.setRst b).freeCount = s.freeCount := rfl

/-! shiftOut -/

@[simp] theorem shiftOut_cfg (s : State) (v : Byte) : (s.shiftOut v).cfg = s.cfg := rfl
@[simp] theorem shiftOut_lines (s : State) (v : Byte) : (s.shiftOut v).lines = { s.lines with sclk := s.cfg.params.spiCpol, mosi := Config.freeMosi s.freeCount } := rfl
@[simp] theorem shiftOut_lat (s : State) (v : Byte) : (s.shiftOut v).lat = s.lat := rfl
@[simp] theorem shiftOut_phase (s : State) (v : Byte) : (s.shiftOut v).phase = s.phase := rfl
@[simp] theorem shiftOut_busy (s : State) (v : Byte) : (s.shiftOut v).busy = s.busy := rfl
@[simp] theorem shiftOut_done (s : State) (v : Byte) : (s.shiftOut v).done = s.done := rfl
@[simp] theorem shiftOut_fault (s : State) (v : Byte) : (s.shiftOut v).fault = s.fault := rfl
@[simp] theorem shiftOut_resp (s : State) (v : Byte) : (s.shiftOut v).resp = s.resp := rfl
@[simp] theorem shiftOut_uq (s : State) (v : Byte) : (s.shiftOut v).uq = s.uq := rfl
@[simp] theorem shiftOut_txbuf (s : State) (v : Byte) : (s.shiftOut v).txbuf = s.txbuf := rfl
@[simp] theorem shiftOut_txlen (s : State) (v : Byte) : (s.shiftOut v).txlen = s.txlen := rfl
@[simp] theorem shiftOut_pwm (s : State) (v : Byte) : (s.shiftOut v).pwm = s.pwm := rfl
@[simp] theorem shiftOut_tmr (s : State) (v : Byte) : (s.shiftOut v).tmr = s.tmr := rfl
@[simp] theorem shiftOut_trace (s : State) (v : Byte) : (s.shiftOut v).trace = s.trace ++ [.byte v] := rfl
@[simp] theorem shiftOut_mem (s : State) (v : Byte) : (s.shiftOut v).mem = s.mem := rfl
@[simp] theorem shiftOut_inputs (s : State) (v : Byte) : (s.shiftOut v).inputs = s.inputs := rfl
@[simp] theorem shiftOut_readback (s : State) (v : Byte) : (s.shiftOut v).readback = s.readback := rfl
@[simp] theorem shiftOut_freeCount (s : State) (v : Byte) : (s.shiftOut v).freeCount = s.freeCount + 1 := rfl

/-! fillTx -/

@[simp] theorem fillTx_cfg (s : State) (bs : List Byte) : (s.fillTx bs).cfg = s.cfg := rfl
@[simp] theorem fillTx_lines (s : State) (bs : List Byte) : (s.fillTx bs).lines = s.lines := rfl
@[simp] theorem fillTx_lat (s : State) (bs : List Byte) : (s.fillTx bs).lat = s.lat := rfl
@[simp] theorem fillTx_phase (s : State) (bs : List Byte) : (s.fillTx bs).phase = s.phase := rfl
@[simp] theorem fillTx_busy (s : State) (bs : List Byte) : (s.fillTx bs).busy = s.busy := rfl
@[simp] theorem fillTx_done (s : State) (bs : List Byte) : (s.fillTx bs).done = s.done := rfl
@[simp] theorem fillTx_fault (s : State) (bs : List Byte) : (s.fillTx bs).fault = s.fault := rfl
@[simp] theorem fillTx_resp (s : State) (bs : List Byte) : (s.fillTx bs).resp = s.resp := rfl
@[simp] theorem fillTx_uq (s : State) (bs : List Byte) : (s.fillTx bs).uq = s.uq := rfl
@[simp] theorem fillTx_txbuf (s : State) (bs : List Byte) : (s.fillTx bs).txbuf = bs ++ s.txbuf.drop bs.length := rfl
@[simp] theorem fillTx_txlen (s : State) (bs : List Byte) : (s.fillTx bs).txlen = bs.length := rfl
@[simp] theorem fillTx_pwm (s : State) (bs : List Byte) : (s.fillTx bs).pwm = s.pwm := rfl
@[simp] theorem fillTx_tmr (s : State) (bs : List Byte) : (s.fillTx bs).tmr = s.tmr := rfl
@[simp] theorem fillTx_trace (s : State) (bs : List Byte) : (s.fillTx bs).trace = s.trace := rfl
@[simp] theorem fillTx_mem (s : State) (bs : List Byte) : (s.fillTx bs).mem = s.mem := rfl
@[simp] theorem fillTx_inputs (s : State) (bs : List Byte) : (s.fillTx bs).inputs = s.inputs := rfl
@[simp] theorem fillTx_readback (s : State) (bs : List Byte) : (s.fillTx bs).readback = s.readback := rfl
@[simp] theorem fillTx_freeCount (s : State) (bs : List Byte) : (s.fillTx bs).freeCount = s.freeCount := rfl

/-! loadTimer -/

@[simp] theorem loadTimer_cfg (s : State) (ms : Nat) : (s.loadTimer ms).cfg = s.cfg := rfl
@[simp] theorem loadTimer_lines (s : State) (ms : Nat) : (s.loadTimer ms).lines = s.lines := rfl
@[simp] theorem loadTimer_lat (s : State) (ms : Nat) : (s.loadTimer ms).lat = s.lat := rfl
@[simp] theorem loadTimer_phase (s : State) (ms : Nat) : (s.loadTimer ms).phase = s.phase := rfl
@[simp] theorem loadTimer_busy (s : State) (ms : Nat) : (s.loadTimer ms).busy = s.busy := rfl
@[simp] theorem loadTimer_done (s : State) (ms : Nat) : (s.loadTimer ms).done = s.done := rfl
@[simp] theorem loadTimer_fault (s : State) (ms : Nat) : (s.loadTimer ms).fault = s.fault := rfl
@[simp] theorem loadTimer_resp (s : State) (ms : Nat) : (s.loadTimer ms).resp = s.resp := rfl
@[simp] theorem loadTimer_uq (s : State) (ms : Nat) : (s.loadTimer ms).uq = s.uq := rfl
@[simp] theorem loadTimer_txbuf (s : State) (ms : Nat) : (s.loadTimer ms).txbuf = s.txbuf := rfl
@[simp] theorem loadTimer_txlen (s : State) (ms : Nat) : (s.loadTimer ms).txlen = s.txlen := rfl
@[simp] theorem loadTimer_pwm (s : State) (ms : Nat) : (s.loadTimer ms).pwm = s.pwm := rfl
@[simp] theorem loadTimer_tmr (s : State) (ms : Nat) : (s.loadTimer ms).tmr = ms := rfl
@[simp] theorem loadTimer_trace (s : State) (ms : Nat) : (s.loadTimer ms).trace = s.trace := rfl
@[simp] theorem loadTimer_mem (s : State) (ms : Nat) : (s.loadTimer ms).mem = s.mem := rfl
@[simp] theorem loadTimer_inputs (s : State) (ms : Nat) : (s.loadTimer ms).inputs = s.inputs := rfl
@[simp] theorem loadTimer_readback (s : State) (ms : Nat) : (s.loadTimer ms).readback = s.readback := rfl
@[simp] theorem loadTimer_freeCount (s : State) (ms : Nat) : (s.loadTimer ms).freeCount = s.freeCount := rfl

/-! writePwm -/

@[simp] theorem writePwm_cfg (s : State) (v : Half) : (s.writePwm v).cfg = s.cfg := rfl
@[simp] theorem writePwm_lines (s : State) (v : Half) : (s.writePwm v).lines = s.lines := rfl
@[simp] theorem writePwm_lat (s : State) (v : Half) : (s.writePwm v).lat = s.lat := rfl
@[simp] theorem writePwm_phase (s : State) (v : Half) : (s.writePwm v).phase = s.phase := rfl
@[simp] theorem writePwm_busy (s : State) (v : Half) : (s.writePwm v).busy = s.busy := rfl
@[simp] theorem writePwm_done (s : State) (v : Half) : (s.writePwm v).done = s.done := rfl
@[simp] theorem writePwm_fault (s : State) (v : Half) : (s.writePwm v).fault = s.fault := rfl
@[simp] theorem writePwm_resp (s : State) (v : Half) : (s.writePwm v).resp = s.resp := rfl
@[simp] theorem writePwm_uq (s : State) (v : Half) : (s.writePwm v).uq = s.uq := rfl
@[simp] theorem writePwm_txbuf (s : State) (v : Half) : (s.writePwm v).txbuf = s.txbuf := rfl
@[simp] theorem writePwm_txlen (s : State) (v : Half) : (s.writePwm v).txlen = s.txlen := rfl
@[simp] theorem writePwm_pwm (s : State) (v : Half) : (s.writePwm v).pwm = { s.pwm with cmp := v, fresh := s.pwm.on } := rfl
@[simp] theorem writePwm_tmr (s : State) (v : Half) : (s.writePwm v).tmr = s.tmr := rfl
@[simp] theorem writePwm_trace (s : State) (v : Half) : (s.writePwm v).trace = s.trace := rfl
@[simp] theorem writePwm_mem (s : State) (v : Half) : (s.writePwm v).mem = s.mem := rfl
@[simp] theorem writePwm_inputs (s : State) (v : Half) : (s.writePwm v).inputs = s.inputs := rfl
@[simp] theorem writePwm_readback (s : State) (v : Half) : (s.writePwm v).readback = s.readback := rfl
@[simp] theorem writePwm_freeCount (s : State) (v : Half) : (s.writePwm v).freeCount = s.freeCount + 1 := rfl

/-! setDone -/

@[simp] theorem setDone_cfg (s : State) : (s.setDone).cfg = s.cfg := rfl
@[simp] theorem setDone_lines (s : State) : (s.setDone).lines = s.lines := rfl
@[simp] theorem setDone_lat (s : State) : (s.setDone).lat = s.lat := rfl
@[simp] theorem setDone_phase (s : State) : (s.setDone).phase = s.phase := rfl
@[simp] theorem setDone_busy (s : State) : (s.setDone).busy = s.busy := rfl
@[simp] theorem setDone_done (s : State) : (s.setDone).done = true := rfl
@[simp] theorem setDone_fault (s : State) : (s.setDone).fault = s.fault := rfl
@[simp] theorem setDone_resp (s : State) : (s.setDone).resp = s.resp := rfl
@[simp] theorem setDone_uq (s : State) : (s.setDone).uq = s.uq := rfl
@[simp] theorem setDone_txbuf (s : State) : (s.setDone).txbuf = s.txbuf := rfl
@[simp] theorem setDone_txlen (s : State) : (s.setDone).txlen = s.txlen := rfl
@[simp] theorem setDone_pwm (s : State) : (s.setDone).pwm = s.pwm := rfl
@[simp] theorem setDone_tmr (s : State) : (s.setDone).tmr = s.tmr := rfl
@[simp] theorem setDone_trace (s : State) : (s.setDone).trace = s.trace := rfl
@[simp] theorem setDone_mem (s : State) : (s.setDone).mem = s.mem := rfl
@[simp] theorem setDone_inputs (s : State) : (s.setDone).inputs = s.inputs := rfl
@[simp] theorem setDone_readback (s : State) : (s.setDone).readback = s.readback := rfl
@[simp] theorem setDone_freeCount (s : State) : (s.setDone).freeCount = s.freeCount := rfl

/-! raise -/

@[simp] theorem raise_cfg (s : State) (c : Cause) : (s.raise c).cfg = s.cfg := rfl
@[simp] theorem raise_lines (s : State) (c : Cause) : (s.raise c).lines = s.lines := rfl
@[simp] theorem raise_lat (s : State) (c : Cause) : (s.raise c).lat = s.lat := rfl
@[simp] theorem raise_phase (s : State) (c : Cause) : (s.raise c).phase = s.phase := rfl
@[simp] theorem raise_busy (s : State) (c : Cause) : (s.raise c).busy = s.busy := rfl
@[simp] theorem raise_done (s : State) (c : Cause) : (s.raise c).done = s.done := rfl
@[simp] theorem raise_fault (s : State) (c : Cause) : (s.raise c).fault = setFaultBit s.fault c := rfl
@[simp] theorem raise_resp (s : State) (c : Cause) : (s.raise c).resp = .err c := rfl
@[simp] theorem raise_uq (s : State) (c : Cause) : (s.raise c).uq = s.uq := rfl
@[simp] theorem raise_txbuf (s : State) (c : Cause) : (s.raise c).txbuf = s.txbuf := rfl
@[simp] theorem raise_txlen (s : State) (c : Cause) : (s.raise c).txlen = s.txlen := rfl
@[simp] theorem raise_pwm (s : State) (c : Cause) : (s.raise c).pwm = s.pwm := rfl
@[simp] theorem raise_tmr (s : State) (c : Cause) : (s.raise c).tmr = s.tmr := rfl
@[simp] theorem raise_trace (s : State) (c : Cause) : (s.raise c).trace = s.trace := rfl
@[simp] theorem raise_mem (s : State) (c : Cause) : (s.raise c).mem = s.mem := rfl
@[simp] theorem raise_inputs (s : State) (c : Cause) : (s.raise c).inputs = s.inputs := rfl
@[simp] theorem raise_readback (s : State) (c : Cause) : (s.raise c).readback = s.readback := rfl
@[simp] theorem raise_freeCount (s : State) (c : Cause) : (s.raise c).freeCount = s.freeCount := rfl

/-! accept -/

@[simp] theorem accept_cfg (s : State) (lat : Latches) (uq : List MicroOp) : (s.accept lat uq).cfg = s.cfg := rfl
@[simp] theorem accept_lines (s : State) (lat : Latches) (uq : List MicroOp) : (s.accept lat uq).lines = s.lines := rfl
@[simp] theorem accept_lat (s : State) (lat : Latches) (uq : List MicroOp) : (s.accept lat uq).lat = lat := rfl
@[simp] theorem accept_phase (s : State) (lat : Latches) (uq : List MicroOp) : (s.accept lat uq).phase = s.phase := rfl
@[simp] theorem accept_busy (s : State) (lat : Latches) (uq : List MicroOp) : (s.accept lat uq).busy = true := rfl
@[simp] theorem accept_done (s : State) (lat : Latches) (uq : List MicroOp) : (s.accept lat uq).done = s.done := rfl
@[simp] theorem accept_fault (s : State) (lat : Latches) (uq : List MicroOp) : (s.accept lat uq).fault = s.fault := rfl
@[simp] theorem accept_resp (s : State) (lat : Latches) (uq : List MicroOp) : (s.accept lat uq).resp = .pending := rfl
@[simp] theorem accept_uq (s : State) (lat : Latches) (uq : List MicroOp) : (s.accept lat uq).uq = uq := rfl
@[simp] theorem accept_txbuf (s : State) (lat : Latches) (uq : List MicroOp) : (s.accept lat uq).txbuf = s.txbuf := rfl
@[simp] theorem accept_txlen (s : State) (lat : Latches) (uq : List MicroOp) : (s.accept lat uq).txlen = s.txlen := rfl
@[simp] theorem accept_pwm (s : State) (lat : Latches) (uq : List MicroOp) : (s.accept lat uq).pwm = s.pwm := rfl
@[simp] theorem accept_tmr (s : State) (lat : Latches) (uq : List MicroOp) : (s.accept lat uq).tmr = s.tmr := rfl
@[simp] theorem accept_trace (s : State) (lat : Latches) (uq : List MicroOp) : (s.accept lat uq).trace = s.trace := rfl
@[simp] theorem accept_mem (s : State) (lat : Latches) (uq : List MicroOp) : (s.accept lat uq).mem = s.mem := rfl
@[simp] theorem accept_inputs (s : State) (lat : Latches) (uq : List MicroOp) : (s.accept lat uq).inputs = s.inputs := rfl
@[simp] theorem accept_readback (s : State) (lat : Latches) (uq : List MicroOp) : (s.accept lat uq).readback = s.readback := rfl
@[simp] theorem accept_freeCount (s : State) (lat : Latches) (uq : List MicroOp) : (s.accept lat uq).freeCount = s.freeCount := rfl

/-! clearDone -/

@[simp] theorem clearDone_cfg (s : State) : (s.clearDone).cfg = s.cfg := rfl
@[simp] theorem clearDone_lines (s : State) : (s.clearDone).lines = s.lines := rfl
@[simp] theorem clearDone_lat (s : State) : (s.clearDone).lat = s.lat := rfl
@[simp] theorem clearDone_phase (s : State) : (s.clearDone).phase = s.phase := rfl
@[simp] theorem clearDone_busy (s : State) : (s.clearDone).busy = s.busy := rfl
@[simp] theorem clearDone_done (s : State) : (s.clearDone).done = false := rfl
@[simp] theorem clearDone_fault (s : State) : (s.clearDone).fault = s.fault := rfl
@[simp] theorem clearDone_resp (s : State) : (s.clearDone).resp = s.resp := rfl
@[simp] theorem clearDone_uq (s : State) : (s.clearDone).uq = s.uq := rfl
@[simp] theorem clearDone_txbuf (s : State) : (s.clearDone).txbuf = s.txbuf := rfl
@[simp] theorem clearDone_txlen (s : State) : (s.clearDone).txlen = s.txlen := rfl
@[simp] theorem clearDone_pwm (s : State) : (s.clearDone).pwm = s.pwm := rfl
@[simp] theorem clearDone_tmr (s : State) : (s.clearDone).tmr = s.tmr := rfl
@[simp] theorem clearDone_trace (s : State) : (s.clearDone).trace = s.trace := rfl
@[simp] theorem clearDone_mem (s : State) : (s.clearDone).mem = s.mem := rfl
@[simp] theorem clearDone_inputs (s : State) : (s.clearDone).inputs = s.inputs := rfl
@[simp] theorem clearDone_readback (s : State) : (s.clearDone).readback = s.readback := rfl
@[simp] theorem clearDone_freeCount (s : State) : (s.clearDone).freeCount = s.freeCount := rfl

/-! startSeq -/

@[simp] theorem startSeq_cfg (s : State) : (s.startSeq).cfg = s.cfg := rfl
@[simp] theorem startSeq_lines (s : State) : (s.startSeq).lines = s.lines := rfl
@[simp] theorem startSeq_lat (s : State) : (s.startSeq).lat = s.lat := rfl
@[simp] theorem startSeq_phase (s : State) : (s.startSeq).phase = .seq := rfl
@[simp] theorem startSeq_busy (s : State) : (s.startSeq).busy = s.busy := rfl
@[simp] theorem startSeq_done (s : State) : (s.startSeq).done = s.done := rfl
@[simp] theorem startSeq_fault (s : State) : (s.startSeq).fault = s.fault := rfl
@[simp] theorem startSeq_resp (s : State) : (s.startSeq).resp = s.resp := rfl
@[simp] theorem startSeq_uq (s : State) : (s.startSeq).uq = s.uq := rfl
@[simp] theorem startSeq_txbuf (s : State) : (s.startSeq).txbuf = s.txbuf := rfl
@[simp] theorem startSeq_txlen (s : State) : (s.startSeq).txlen = s.txlen := rfl
@[simp] theorem startSeq_pwm (s : State) : (s.startSeq).pwm = s.pwm := rfl
@[simp] theorem startSeq_tmr (s : State) : (s.startSeq).tmr = s.tmr := rfl
@[simp] theorem startSeq_trace (s : State) : (s.startSeq).trace = s.trace := rfl
@[simp] theorem startSeq_mem (s : State) : (s.startSeq).mem = s.mem := rfl
@[simp] theorem startSeq_inputs (s : State) : (s.startSeq).inputs = s.inputs := rfl
@[simp] theorem startSeq_readback (s : State) : (s.startSeq).readback = s.readback := rfl
@[simp] theorem startSeq_freeCount (s : State) : (s.startSeq).freeCount = s.freeCount := rfl

/-! hostStore -/

@[simp] theorem hostStore_cfg (s : State) (a : Word) (v : Byte) : (s.hostStore a v).cfg = s.cfg := rfl
@[simp] theorem hostStore_lines (s : State) (a : Word) (v : Byte) : (s.hostStore a v).lines = s.lines := rfl
@[simp] theorem hostStore_lat (s : State) (a : Word) (v : Byte) : (s.hostStore a v).lat = s.lat := rfl
@[simp] theorem hostStore_phase (s : State) (a : Word) (v : Byte) : (s.hostStore a v).phase = s.phase := rfl
@[simp] theorem hostStore_busy (s : State) (a : Word) (v : Byte) : (s.hostStore a v).busy = s.busy := rfl
@[simp] theorem hostStore_done (s : State) (a : Word) (v : Byte) : (s.hostStore a v).done = s.done := rfl
@[simp] theorem hostStore_fault (s : State) (a : Word) (v : Byte) : (s.hostStore a v).fault = s.fault := rfl
@[simp] theorem hostStore_resp (s : State) (a : Word) (v : Byte) : (s.hostStore a v).resp = s.resp := rfl
@[simp] theorem hostStore_uq (s : State) (a : Word) (v : Byte) : (s.hostStore a v).uq = s.uq := rfl
@[simp] theorem hostStore_txbuf (s : State) (a : Word) (v : Byte) : (s.hostStore a v).txbuf = s.txbuf := rfl
@[simp] theorem hostStore_txlen (s : State) (a : Word) (v : Byte) : (s.hostStore a v).txlen = s.txlen := rfl
@[simp] theorem hostStore_pwm (s : State) (a : Word) (v : Byte) : (s.hostStore a v).pwm = s.pwm := rfl
@[simp] theorem hostStore_tmr (s : State) (a : Word) (v : Byte) : (s.hostStore a v).tmr = s.tmr := rfl
@[simp] theorem hostStore_trace (s : State) (a : Word) (v : Byte) : (s.hostStore a v).trace = s.trace := rfl
@[simp] theorem hostStore_mem (s : State) (a : Word) (v : Byte) : (s.hostStore a v).mem = Memory.write s.mem a.toNat v := rfl
@[simp] theorem hostStore_inputs (s : State) (a : Word) (v : Byte) : (s.hostStore a v).inputs = s.inputs := rfl
@[simp] theorem hostStore_readback (s : State) (a : Word) (v : Byte) : (s.hostStore a v).readback = s.readback := rfl
@[simp] theorem hostStore_freeCount (s : State) (a : Word) (v : Byte) : (s.hostStore a v).freeCount = s.freeCount := rfl

/-! hostRead -/

@[simp] theorem hostRead_cfg (s : State) (r : StatusReg) : (s.hostRead r).cfg = s.cfg := rfl
@[simp] theorem hostRead_lines (s : State) (r : StatusReg) : (s.hostRead r).lines = s.lines := rfl
@[simp] theorem hostRead_lat (s : State) (r : StatusReg) : (s.hostRead r).lat = s.lat := rfl
@[simp] theorem hostRead_phase (s : State) (r : StatusReg) : (s.hostRead r).phase = s.phase := rfl
@[simp] theorem hostRead_busy (s : State) (r : StatusReg) : (s.hostRead r).busy = s.busy := rfl
@[simp] theorem hostRead_done (s : State) (r : StatusReg) : (s.hostRead r).done = s.done := rfl
@[simp] theorem hostRead_fault (s : State) (r : StatusReg) : (s.hostRead r).fault = s.fault := rfl
@[simp] theorem hostRead_resp (s : State) (r : StatusReg) : (s.hostRead r).resp = s.resp := rfl
@[simp] theorem hostRead_uq (s : State) (r : StatusReg) : (s.hostRead r).uq = s.uq := rfl
@[simp] theorem hostRead_txbuf (s : State) (r : StatusReg) : (s.hostRead r).txbuf = s.txbuf := rfl
@[simp] theorem hostRead_txlen (s : State) (r : StatusReg) : (s.hostRead r).txlen = s.txlen := rfl
@[simp] theorem hostRead_pwm (s : State) (r : StatusReg) : (s.hostRead r).pwm = s.pwm := rfl
@[simp] theorem hostRead_tmr (s : State) (r : StatusReg) : (s.hostRead r).tmr = s.tmr := rfl
@[simp] theorem hostRead_trace (s : State) (r : StatusReg) : (s.hostRead r).trace = s.trace := rfl
@[simp] theorem hostRead_mem (s : State) (r : StatusReg) : (s.hostRead r).mem = s.mem := rfl
@[simp] theorem hostRead_inputs (s : State) (r : StatusReg) : (s.hostRead r).inputs = s.inputs := rfl
@[simp] theorem hostRead_readback (s : State) (r : StatusReg) : (s.hostRead r).readback = s.readback ++ [statusWord r s] := rfl
@[simp] theorem hostRead_freeCount (s : State) (r : StatusReg) : (s.hostRead r).freeCount = s.freeCount := rfl

/-! pwmStart -/

@[simp] theorem pwmStart_cfg (s : State) : (s.pwmStart).cfg = s.cfg := rfl
@[simp] theorem pwmStart_lines (s : State) : (s.pwmStart).lines = s.lines := rfl
@[simp] theorem pwmStart_lat (s : State) : (s.pwmStart).lat = s.lat := rfl
@[simp] theorem pwmStart_phase (s : State) : (s.pwmStart).phase = s.phase := rfl
@[simp] theorem pwmStart_busy (s : State) : (s.pwmStart).busy = s.busy := rfl
@[simp] theorem pwmStart_done (s : State) : (s.pwmStart).done = s.done := rfl
@[simp] theorem pwmStart_fault (s : State) : (s.pwmStart).fault = s.fault := rfl
@[simp] theorem pwmStart_resp (s : State) : (s.pwmStart).resp = s.resp := rfl
@[simp] theorem pwmStart_uq (s : State) : (s.pwmStart).uq = s.uq := rfl
@[simp] theorem pwmStart_txbuf (s : State) : (s.pwmStart).txbuf = s.txbuf := rfl
@[simp] theorem pwmStart_txlen (s : State) : (s.pwmStart).txlen = s.txlen := rfl
@[simp] theorem pwmStart_pwm (s : State) : (s.pwmStart).pwm = { s.pwm with on := true } := rfl
@[simp] theorem pwmStart_tmr (s : State) : (s.pwmStart).tmr = s.tmr := rfl
@[simp] theorem pwmStart_trace (s : State) : (s.pwmStart).trace = s.trace := rfl
@[simp] theorem pwmStart_mem (s : State) : (s.pwmStart).mem = s.mem := rfl
@[simp] theorem pwmStart_inputs (s : State) : (s.pwmStart).inputs = s.inputs := rfl
@[simp] theorem pwmStart_readback (s : State) : (s.pwmStart).readback = s.readback := rfl
@[simp] theorem pwmStart_freeCount (s : State) : (s.pwmStart).freeCount = s.freeCount := rfl

/-! withInputs -/

@[simp] theorem withInputs_cfg (s : State) (l : List Input) : (s.withInputs l).cfg = s.cfg := rfl
@[simp] theorem withInputs_lines (s : State) (l : List Input) : (s.withInputs l).lines = s.lines := rfl
@[simp] theorem withInputs_lat (s : State) (l : List Input) : (s.withInputs l).lat = s.lat := rfl
@[simp] theorem withInputs_phase (s : State) (l : List Input) : (s.withInputs l).phase = s.phase := rfl
@[simp] theorem withInputs_busy (s : State) (l : List Input) : (s.withInputs l).busy = s.busy := rfl
@[simp] theorem withInputs_done (s : State) (l : List Input) : (s.withInputs l).done = s.done := rfl
@[simp] theorem withInputs_fault (s : State) (l : List Input) : (s.withInputs l).fault = s.fault := rfl
@[simp] theorem withInputs_resp (s : State) (l : List Input) : (s.withInputs l).resp = s.resp := rfl
@[simp] theorem withInputs_uq (s : State) (l : List Input) : (s.withInputs l).uq = s.uq := rfl
@[simp] theorem withInputs_txbuf (s : State) (l : List Input) : (s.withInputs l).txbuf = s.txbuf := rfl
@[simp] theorem withInputs_txlen (s : State) (l : List Input) : (s.withInputs l).txlen = s.txlen := rfl
@[simp] theorem withInputs_pwm (s : State) (l : List Input) : (s.withInputs l).pwm = s.pwm := rfl
@[simp] theorem withInputs_tmr (s : State) (l : List Input) : (s.withInputs l).tmr = s.tmr := rfl
@[simp] theorem withInputs_trace (s : State) (l : List Input) : (s.withInputs l).trace = s.trace := rfl
@[simp] theorem withInputs_mem (s : State) (l : List Input) : (s.withInputs l).mem = s.mem := rfl
@[simp] theorem withInputs_inputs (s : State) (l : List Input) : (s.withInputs l).inputs = l := rfl
@[simp] theorem withInputs_readback (s : State) (l : List Input) : (s.withInputs l).readback = s.readback := rfl
@[simp] theorem withInputs_freeCount (s : State) (l : List Input) : (s.withInputs l).freeCount = s.freeCount := rfl

/-! retire -/

@[simp] theorem retire_cfg (s : State) (rest : List MicroOp) : (s.retire rest).cfg = s.cfg := by cases rest <;> rfl
@[simp] theorem retire_lines (s : State) (rest : List MicroOp) : (s.retire rest).lines = s.lines := by cases rest <;> rfl
@[simp] theorem retire_lat (s : State) (rest : List MicroOp) : (s.retire rest).lat = s.lat := by cases rest <;> rfl
@[simp] theorem retire_done (s : State) (rest : List MicroOp) : (s.retire rest).done = s.done := by cases rest <;> rfl
@[simp] theorem retire_fault (s : State) (rest : List MicroOp) : (s.retire rest).fault = s.fault := by cases rest <;> rfl
@[simp] theorem retire_uq (s : State) (rest : List MicroOp) : (s.retire rest).uq = rest := by cases rest <;> rfl
@[simp] theorem retire_txbuf (s : State) (rest : List MicroOp) : (s.retire rest).txbuf = s.txbuf := by cases rest <;> rfl
@[simp] theorem retire_txlen (s : State) (rest : List MicroOp) : (s.retire rest).txlen = s.txlen := by cases rest <;> rfl
@[simp] theorem retire_pwm (s : State) (rest : List MicroOp) : (s.retire rest).pwm = s.pwm := by cases rest <;> rfl
@[simp] theorem retire_tmr (s : State) (rest : List MicroOp) : (s.retire rest).tmr = s.tmr := by cases rest <;> rfl
@[simp] theorem retire_trace (s : State) (rest : List MicroOp) : (s.retire rest).trace = s.trace := by cases rest <;> rfl
@[simp] theorem retire_mem (s : State) (rest : List MicroOp) : (s.retire rest).mem = s.mem := by cases rest <;> rfl
@[simp] theorem retire_inputs (s : State) (rest : List MicroOp) : (s.retire rest).inputs = s.inputs := by cases rest <;> rfl
@[simp] theorem retire_readback (s : State) (rest : List MicroOp) : (s.retire rest).readback = s.readback := by cases rest <;> rfl
@[simp] theorem retire_freeCount (s : State) (rest : List MicroOp) : (s.retire rest).freeCount = s.freeCount := by cases rest <;> rfl
@[simp] theorem retire_nil_busy (s : State) : (s.retire []).busy = false := rfl
@[simp] theorem retire_nil_resp (s : State) : (s.retire []).resp = .ok := rfl
@[simp] theorem retire_nil_phase (s : State) : (s.retire []).phase = s.phase.settle := rfl
@[simp] theorem retire_cons_busy (s : State) (u : MicroOp) (us : List MicroOp) : (s.retire (u :: us)).busy = s.busy := rfl
@[simp] theorem retire_cons_resp (s : State) (u : MicroOp) (us : List MicroOp) : (s.retire (u :: us)).resp = s.resp := rfl
@[simp] theorem retire_cons_phase (s : State) (u : MicroOp) (us : List MicroOp) : (s.retire (u :: us)).phase = s.phase := rfl

/-! pwmTick -/

@[simp] theorem pwmTick_cfg (s : State) : s.pwmTick.cfg = s.cfg := by unfold State.pwmTick; split <;> rfl
@[simp] theorem pwmTick_lines (s : State) : s.pwmTick.lines = s.lines := by unfold State.pwmTick; split <;> rfl
@[simp] theorem pwmTick_lat (s : State) : s.pwmTick.lat = s.lat := by unfold State.pwmTick; split <;> rfl
@[simp] theorem pwmTick_phase (s : State) : s.pwmTick.phase = s.phase := by unfold State.pwmTick; split <;> rfl
@[simp] theorem pwmTick_busy (s : State) : s.pwmTick.busy = s.busy := by unfold State.pwmTick; split <;> rfl
@[simp] theorem pwmTick_done (s : State) : s.pwmTick.done = s.done := by unfold State.pwmTick; split <;> rfl
@[simp] theorem pwmTick_fault (s : State) : s.pwmTick.fault = s.fault := by unfold State.pwmTick; split <;> rfl
@[simp] theorem pwmTick_resp (s : State) : s.pwmTick.resp = s.resp := by unfold State.pwmTick; split <;> rfl
@[simp] theorem pwmTick_uq (s : State) : s.pwmTick.uq = s.uq := by unfold State.pwmTick; split <;> rfl
@[simp] theorem pwmTick_txbuf (s : State) : s.pwmTick.txbuf = s.txbuf := by unfold State.pwmTick; split <;> rfl
@[simp] theorem pwmTick_txlen (s : State) : s.pwmTick.txlen = s.txlen := by unfold State.pwmTick; split <;> rfl
@[simp] theorem pwmTick_tmr (s : State) : s.pwmTick.tmr = s.tmr := by unfold State.pwmTick; split <;> rfl
@[simp] theorem pwmTick_trace (s : State) : s.pwmTick.trace = s.trace := by unfold State.pwmTick; split <;> rfl
@[simp] theorem pwmTick_mem (s : State) : s.pwmTick.mem = s.mem := by unfold State.pwmTick; split <;> rfl
@[simp] theorem pwmTick_inputs (s : State) : s.pwmTick.inputs = s.inputs := by unfold State.pwmTick; split <;> rfl
@[simp] theorem pwmTick_readback (s : State) : s.pwmTick.readback = s.readback := by unfold State.pwmTick; split <;> rfl
@[simp] theorem pwmTick_cmp (s : State) : s.pwmTick.pwm.cmp = s.pwm.cmp := by unfold State.pwmTick; split <;> rfl
@[simp] theorem pwmTick_on (s : State) : s.pwmTick.pwm.on = s.pwm.on := by unfold State.pwmTick; split <;> rfl

/-! hardReset -/

@[simp] theorem hardReset_cfg (s : State) (u : ResetLevels) : (s.hardReset u).cfg = s.cfg := rfl
@[simp] theorem hardReset_lines (s : State) (u : ResetLevels) : (s.hardReset u).lines = { cs := true, dc := u.dc, rst := u.rst, sclk := u.sclk, mosi := u.mosi } := rfl
@[simp] theorem hardReset_lat (s : State) (u : ResetLevels) : (s.hardReset u).lat = u.lat := rfl
@[simp] theorem hardReset_phase (s : State) (u : ResetLevels) : (s.hardReset u).phase = .cold := rfl
@[simp] theorem hardReset_busy (s : State) (u : ResetLevels) : (s.hardReset u).busy = false := rfl
@[simp] theorem hardReset_done (s : State) (u : ResetLevels) : (s.hardReset u).done = false := rfl
@[simp] theorem hardReset_fault (s : State) (u : ResetLevels) : (s.hardReset u).fault = 0 := rfl
@[simp] theorem hardReset_resp (s : State) (u : ResetLevels) : (s.hardReset u).resp = .none := rfl
@[simp] theorem hardReset_uq (s : State) (u : ResetLevels) : (s.hardReset u).uq = [] := rfl
@[simp] theorem hardReset_txbuf (s : State) (u : ResetLevels) : (s.hardReset u).txbuf = u.txbufFor s.cfg.params.txbufCap := rfl
@[simp] theorem hardReset_txlen (s : State) (u : ResetLevels) : (s.hardReset u).txlen = 0 := rfl
@[simp] theorem hardReset_pwm (s : State) (u : ResetLevels) : (s.hardReset u).pwm = { s.pwm with cmp := 0, ctr := u.pwmCtr, fresh := false } := rfl
@[simp] theorem hardReset_tmr (s : State) (u : ResetLevels) : (s.hardReset u).tmr = 0 := rfl
@[simp] theorem hardReset_trace (s : State) (u : ResetLevels) : (s.hardReset u).trace = [] := rfl
@[simp] theorem hardReset_mem (s : State) (u : ResetLevels) : (s.hardReset u).mem = s.mem := rfl
@[simp] theorem hardReset_inputs (s : State) (u : ResetLevels) : (s.hardReset u).inputs = s.inputs := rfl
@[simp] theorem hardReset_readback (s : State) (u : ResetLevels) : (s.hardReset u).readback = s.readback := rfl
@[simp] theorem hardReset_freeCount (s : State) (u : ResetLevels) : (s.hardReset u).freeCount = s.freeCount := rfl

end Sys2Proof.Machine
end

