-- ==== Sys2Proof/Laws/Ops.lean ====
section
/-! SUPPORT. Everything a shared operation can do, once per operation: the submit step, each operation's acceptance, one
micro-operation, the engine step, and one step of the machine. Later proofs cite these and unfold none of them. -/

namespace Sys2Proof.Machine

/-! The submit step (R36). -/

/-- A submission that answers: the port was ready, and either a cause was raised or the operation was accepted. -/
theorem submit_next {s acc t : State} {c : Option Cause} (h : submit s c acc = .next t) :
    s.busy = false ∧ ((∃ cause, c = some cause ∧ t = s.raise cause) ∨ (c = none ∧ t = acc)) := by
  unfold submit at h
  split at h
  · cases h
  · rename_i hb
    refine ⟨by simpa using hb, ?_⟩
    cases c with
    | none => right; cases h; exact ⟨rfl, rfl⟩
    | some cause => left; cases h; exact ⟨cause, rfl, rfl⟩

/-- The submit step never faults. -/
theorem submit_ne_fault {s acc : State} {c : Option Cause} {f : Fault} : submit s c acc ≠ .fault f := by
  unfold submit
  cases c <;> split <;> simp

/-- With the port ready the submit step always answers a next state. -/
theorem submit_ready {s acc : State} {c : Option Cause} (hb : s.busy = false) :
    submit s c acc = .next (match c with | some cause => s.raise cause | none => acc) := by
  unfold submit
  cases c <;> simp [hb]

theorem submit_none {s acc : State} (hb : s.busy = false) : submit s none acc = .next acc := by
  simp [submit, hb]

theorem submit_some {s acc : State} {c : Cause} (hb : s.busy = false) : submit s (some c) acc = .next (s.raise c) := by
  simp [submit, hb]

/-- While BUSY = 1 the port takes nothing (R36). -/
theorem submit_busy {s acc : State} {c : Option Cause} (hb : s.busy = true) :
    submit s c acc = .refused .portNotReady := by
  simp [submit, hb]

/-- An operation and the host operation it stands for have one meaning (R88). -/
theorem exec_core (i : Instr) (s : State) : exec i s = exec (i.core s.cfg.params) s := by
  cases i <;> simp [exec, Instr.core, execWreg, execXfer, execSlpout, execDispon, execCaset, execRaset, execRamwr,
    execPixels, execInitScriptEntry]

/-- Checks that pass, read back. -/
theorem checkXfer_none {s : State} {buf len : Word} :
    checkXfer s buf len = none ↔ s.phase = .ready ∧ buf.toNat + len.toNat ≤ 4294967296 := by
  unfold checkXfer bufOverruns
  by_cases hp : s.phase = .ready <;> simp [hp]

theorem checkWreg_none {s : State} {n : Nat} :
    checkWreg s n = none ↔ s.phase = .ready ∧ n ≤ s.cfg.params.txbufCap := by
  unfold checkWreg
  by_cases hp : s.phase = .ready <;> simp [hp]

theorem checkInit_none {s : State} : checkInit s = none ↔ s.phase = .cold := by
  unfold checkInit
  by_cases hp : s.phase = .cold <;> simp [hp]

theorem rectOk_true {p : Params} {x1 y1 x2 y2 : Half} :
    rectOk p x1 y1 x2 y2 = true ↔
      x1.toNat ≤ x2.toNat ∧ x2.toNat < p.hres ∧ y1.toNat ≤ y2.toNat ∧ y2.toNat < p.vres := by
  simp only [rectOk, Bool.and_eq_true, decide_eq_true_eq, and_assoc]

theorem checkFlush_none {s : State} {x1 y1 x2 y2 : Half} {size : Nat} {buf len : Word} :
    checkFlush s x1 y1 x2 y2 size buf len = none ↔
      s.phase = .ready ∧ rectOk s.cfg.params x1 y1 x2 y2 = true ∧ len.toNat = size ∧
        buf.toNat + len.toNat ≤ 4294967296 := by
  unfold checkFlush bufOverruns
  by_cases hp : s.phase = .ready
  · by_cases hr : rectOk s.cfg.params x1 y1 x2 y2 = true
    · by_cases hl : len.toNat = size <;> simp [hp, hr, hl]
    · simp [hp, hr]
  · simp [hp]

theorem checkSetbl_none {level : Half} : checkSetbl level = none ↔ level.toNat ≤ 255 := by
  unfold checkSetbl
  split <;> simp <;> omega

/-- The five ways an operation is accepted (R101, R112, R121, R140, R156): its check passed, and the state it leaves. -/
inductive Accepts (s : State) : Instr → State → Prop where
  | xfer (d : Bool) (buf len : Word) (ready : s.phase = .ready) (fits : buf.toNat + len.toNat ≤ 4294967296) :
      Accepts s (.xfer d buf len) (s.accept (s.lat.loadXfer d buf len) (expandXfer d len))
  | wreg (opc : Byte) (ps : List Word) (ready : s.phase = .ready) (fits : ps.length ≤ s.cfg.params.txbufCap) :
      Accepts s (.wreg opc ps)
        (s.accept (s.lat.loadWreg opc (BitVec.ofNat 16 ps.length)) (expandWreg opc ps))
  | init (cold : s.phase = .cold) :
      Accepts s .init (s.startSeq.accept s.lat.loadInit (expandInit s.cfg.params))
  | flush (x1 y1 x2 y2 : Half) (buf len : Word) (ready : s.phase = .ready)
      (rect : rectOk s.cfg.params x1 y1 x2 y2 = true) (size : len.toNat = rectBytes s.cfg.params x1 y1 x2 y2)
      (fits : buf.toNat + len.toNat ≤ 4294967296) :
      Accepts s (.flush x1 y1 x2 y2 buf len)
        (s.clearDone.accept (s.lat.loadFlush x1 y1 x2 y2 buf len) (expandFlush s.cfg.params x1 y1 x2 y2 len))
  | setbl (level : Half) (fits : level.toNat ≤ 255) :
      Accepts s (.setbl level) (s.accept (s.lat.loadSetbl level) (expandSetbl level))

/-- A host operation that answers was rejected with a cause or accepted. -/
theorem exec_core_next {i : Instr} {s t : State} (h : exec (i.core s.cfg.params) s = .next t) :
    s.busy = false ∧ ((∃ c, t = s.raise c) ∨ Accepts s (i.core s.cfg.params) t) := by
  generalize hj : i.core s.cfg.params = j at h ⊢
  cases j with
  | xfer d buf len =>
    obtain ⟨hb, ⟨c, -, rfl⟩ | ⟨hc, rfl⟩⟩ := submit_next h
    · exact ⟨hb, .inl ⟨c, rfl⟩⟩
    · obtain ⟨hr, hf⟩ := checkXfer_none.1 hc
      exact ⟨hb, .inr (.xfer d buf len hr hf)⟩
  | wreg opc ps =>
    obtain ⟨hb, ⟨c, -, rfl⟩ | ⟨hc, rfl⟩⟩ := submit_next h
    · exact ⟨hb, .inl ⟨c, rfl⟩⟩
    · obtain ⟨hr, hf⟩ := checkWreg_none.1 hc
      exact ⟨hb, .inr (.wreg opc ps hr hf)⟩
  | init =>
    obtain ⟨hb, ⟨c, -, rfl⟩ | ⟨hc, rfl⟩⟩ := submit_next h
    · exact ⟨hb, .inl ⟨c, rfl⟩⟩
    · exact ⟨hb, .inr (.init (checkInit_none.1 hc))⟩
  | flush x1 y1 x2 y2 buf len =>
    obtain ⟨hb, ⟨c, -, rfl⟩ | ⟨hc, rfl⟩⟩ := submit_next h
    · exact ⟨hb, .inl ⟨c, rfl⟩⟩
    · obtain ⟨hr, ho, hl, hf⟩ := checkFlush_none.1 hc
      exact ⟨hb, .inr (.flush x1 y1 x2 y2 buf len hr ho hl hf)⟩
  | setbl level =>
    obtain ⟨hb, ⟨c, -, rfl⟩ | ⟨hc, rfl⟩⟩ := submit_next h
    · exact ⟨hb, .inl ⟨c, rfl⟩⟩
    · exact ⟨hb, .inr (.setbl level (checkSetbl_none.1 hc))⟩
  | slpout => cases i <;> cases hj
  | dispon => cases i <;> cases hj
  | caset a b => cases i <;> cases hj
  | raset a b => cases i <;> cases hj
  | ramwr => cases i <;> cases hj
  | pixels buf len => cases i <;> cases hj
  | initScriptEntry opc bs => cases i <;> cases hj

/-- Any operation that answers was rejected with a cause or accepted as the host operation it stands for. -/
theorem exec_next {i : Instr} {s t : State} (h : exec i s = .next t) :
    s.busy = false ∧ ((∃ c, t = s.raise c) ∨ ∃ j, i.core s.cfg.params = j ∧ Accepts s j t) := by
  obtain ⟨hb, h⟩ := exec_core_next (exec_core i s ▸ h)
  exact ⟨hb, h.imp_right fun h => ⟨_, rfl, h⟩⟩

/-- No meaning faults. -/
theorem exec_ne_fault {i : Instr} {s : State} {f : Fault} : exec i s ≠ .fault f := by
  cases i <;> exact submit_ne_fault

/-! One micro-operation (R33). -/

/-- The event a micro-operation emits; uFILL emits none. -/
def opEvents (u : MicroOp) (s : State) : List Event := futureEvents s.mem s.lat.buf.toNat s.txbuf [u]

/-- What no micro-operation changes, and the one event it may emit. -/
structure Performs (u : MicroOp) (s t : State) : Prop where
  cfg : t.cfg = s.cfg
  lat : t.lat = s.lat
  phase : t.phase = s.phase
  busy : t.busy = s.busy
  fault : t.fault = s.fault
  resp : t.resp = s.resp
  uq : t.uq = s.uq
  mem : t.mem = s.mem
  inputs : t.inputs = s.inputs
  readback : t.readback = s.readback
  trace : t.trace = s.trace ++ opEvents u s

/-- Every micro-operation that can be performed has this frame. -/
theorem perform_next {u : MicroOp} {s t : State} (h : perform u s = .next t) : Performs u s t := by
  cases u with
  | cs b => cases h; constructor <;> rfl
  | dc b => cases h; constructor <;> rfl
  | rst b => cases h; constructor <;> rfl
  | imm v => cases h; constructor <;> rfl
  | tx i =>
    simp only [perform] at h
    split at h
    · split at h
      · rename_i v hv
        cases h
        constructor <;> try rfl
        simp [opEvents, futureEvents, List.getD, hv]
      · cases h
    · cases h
  | src i =>
    simp only [perform] at h
    split at h
    · cases h; constructor <;> rfl
    · cases h
  | fill bs =>
    simp only [perform] at h
    split at h
    · cases h; constructor <;> simp [opEvents, futureEvents]
    · cases h
  | delay ms => cases h; constructor <;> rfl
  | pwm v => cases h; constructor <;> rfl
  | done => cases h; constructor <;> rfl

/-- No micro-operation is refused. -/
theorem perform_ne_refused {u : MicroOp} {s : State} {r : Refusal} : perform u s ≠ .refused r := by
  cases u with
  | tx i =>
    simp only [perform]
    split
    · split <;> simp
    · simp
  | src i => simp only [perform]; split <;> simp
  | fill bs => simp only [perform]; split <;> simp
  | _ => simp [perform]

/-! The engine step (R35). -/

/-- The engine either had nothing to do or performed the head of UQ. -/
theorem engineStep_next {s t : State} (h : engineStep s = .next t) :
    (s.uq = [] ∧ s.busy = false ∧ t = s) ∨
      ∃ u rest m, s.uq = u :: rest ∧ perform u s = .next m ∧ t = m.retire rest := by
  unfold engineStep at h
  split at h
  · rename_i hq
    split at h
    · cases h
    · rename_i hb
      cases h
      exact .inl ⟨hq, by simpa using hb, rfl⟩
  · rename_i u rest hq
    split at h <;> cases h
    exact .inr ⟨u, rest, _, hq, by assumption, rfl⟩

/-- The engine is never refused. -/
theorem engineStep_ne_refused {s : State} {r : Refusal} : engineStep s ≠ .refused r := by
  unfold engineStep
  split
  · split <;> simp
  · split
    · simp
    · simp
    · exact absurd ‹_› perform_ne_refused

/-! One step. -/

/-- Everything one step can do when it answers a next state. -/
inductive StepCase (s t : State) : Prop where
  /-- The engine goes on: the outside world has no act left, or a submission waits (R36). -/
  | engine (h : engineStep s = .next t) (hin : s.inputs = [] ∨ s.busy = true)
  /-- The outside world lets the engine take one step. -/
  | letEngine (rest : List Input) (hin : s.inputs = .engine :: rest) (h : engineStep (s.withInputs rest) = .next t)
  /-- A submission is taken. -/
  | submitted (i : Instr) (l : List Input) (hb : s.busy = false) (h : exec i (s.withInputs l) = .next t)
      (hin : (∃ ws rest more, s.inputs = .submit ws :: rest ∧ decode ws = .ok (i, more) ∧ l = restInputs more rest) ∨
        s.inputs = .issue i :: l ∧ i.wellFormed = true)
  /-- An illegal header is rejected (R85). -/
  | illegal (ws : List Word) (rest l : List Input) (hin : s.inputs = .submit ws :: rest)
      (hd : decode ws = .error .illegalOp) (hb : s.busy = false) (h : t = (s.withInputs l).raise .illegalOp)
  /-- No word is handed over. -/
  | nothing (l : List Input) (h : t = s.withInputs l)
  | read (r : StatusReg) (rest : List Input) (hin : s.inputs = .readStatus r :: rest)
      (h : t = (s.hostRead r).withInputs rest)
  | store (a : Word) (v : Byte) (rest : List Input) (hin : s.inputs = .store a v :: rest)
      (h : t = (s.hostStore a v).withInputs rest)
  | pwmStart (rest : List Input) (hin : s.inputs = .pwmStart :: rest) (h : t = s.pwmStart.withInputs rest)
  | pwmTick (rest : List Input) (hin : s.inputs = .pwmTick :: rest) (h : t = s.pwmTick.withInputs rest)
  | reset (u : ResetLevels) (rest : List Input) (hin : s.inputs = .reset u :: rest)
      (h : t = (s.hardReset u).withInputs rest)

/-- Say once what a step can do. -/
theorem step_next {s t : State} (h : step s = .next t) : StepCase s t := by
  unfold step stepOnce at h
  split at h
  · exact .engine h (.inl ‹_›)
  · rename_i x rest hin
    cases x with
    | submit ws =>
      simp only [takeInput] at h
      split at h
      · exact .engine h (.inr ‹_›)
      · rename_i hb
        have hb : s.busy = false := by simpa using hb
        unfold submitWords at h
        split at h
        · rename_i i more hd
          exact .submitted i _ hb h (.inl ⟨ws, rest, more, hin, hd, rfl⟩)
        · rename_i hd
          cases h
          exact .illegal ws rest _ hin hd hb rfl
        · cases h; exact .nothing _ rfl
        · cases h
    | issue i =>
      simp only [takeInput] at h
      split at h
      · exact .engine h (.inr ‹_›)
      · rename_i hb
        unfold submitInstr at h
        split at h
        · exact .submitted i rest (by simpa using hb) h (.inr ⟨hin, ‹_›⟩)
        · cases h
    | engine => exact .letEngine rest hin h
    | readStatus r => cases h; exact .read r rest hin rfl
    | writeStatus r v => cases h; exact .nothing rest rfl
    | store a v => cases h; exact .store a v rest hin rfl
    | pwmStart => cases h; exact .pwmStart rest hin rfl
    | pwmTick => cases h; exact .pwmTick rest hin rfl
    | reset u => cases h; exact .reset u rest hin rfl

/-- A step faults only where the engine does. -/
theorem step_fault {s : State} {f : Fault} (h : step s = .fault f) :
    engineStep s = .fault f ∨ ∃ rest, s.inputs = .engine :: rest ∧ engineStep (s.withInputs rest) = .fault f := by
  unfold step stepOnce at h
  split at h
  · exact .inl h
  · rename_i x rest hin
    cases x with
    | submit ws =>
      simp only [takeInput] at h
      split at h
      · exact .inl h
      · unfold submitWords at h
        split at h <;> first | exact absurd h exec_ne_fault | cases h
    | issue i =>
      simp only [takeInput] at h
      split at h
      · exact .inl h
      · unfold submitInstr at h
        split at h <;> first | exact absurd h exec_ne_fault | cases h
    | engine => exact .inr ⟨rest, hin, h⟩
    | readStatus r => cases h
    | writeStatus r v => cases h
    | store a v => cases h
    | pwmStart => cases h
    | pwmTick => cases h
    | reset u => cases h

/-! Runs. -/

theorem steps_succ {n : Nat} {s t : State} (h : step s = .next t) : steps (n + 1) s = steps n t := by
  simp [steps, h]

/-- A run that answers took a first step that answers. -/
theorem steps_succ_next {n : Nat} {s t : State} (h : steps (n + 1) s = .next t) :
    ∃ u, step s = .next u ∧ steps n u = .next t := by
  rw [steps] at h
  split at h
  · exact ⟨_, ‹_›, h⟩
  · cases h
  · cases h

/-- One step of the host's run, by what the step answers. -/
theorem run_succ_next {M : Host.Core} {n : Nat} {s t : M.State} (h : M.step s = .next t) : M.run (n + 1) s = M.run n t := by
  rw [Host.Core.run, h]

theorem run_succ_fault {M : Host.Core} {n : Nat} {s : M.State} {f : M.Fault} (h : M.step s = .fault f) :
    M.run (n + 1) s = .fault f := by
  rw [Host.Core.run, h]

theorem run_succ_refused {M : Host.Core} {n : Nat} {s : M.State} {r : M.Refusal} (h : M.step s = .refused r) :
    M.run (n + 1) s = .refused r := by
  rw [Host.Core.run, h]

/-- The host's own run of the machine is `steps`. -/
theorem core_run_eq_steps (n : Nat) (s : State) : Sys2Proof.core.run n s = steps n s := by
  induction n generalizing s with
  | zero => rfl
  | succ n ih =>
    rw [steps]
    cases h : step s with
    | next t => exact (run_succ_next (M := Sys2Proof.core) h).trans (ih t)
    | fault f => exact run_succ_fault (M := Sys2Proof.core) h
    | refused r => exact run_succ_refused (M := Sys2Proof.core) h

/-- A run of `m + n` steps is a run of `m` and then one of `n`. -/
theorem steps_add {m n : Nat} {s t : State} (h : steps m s = .next t) : steps (m + n) s = steps n t := by
  induction m generalizing s with
  | zero => cases h; simp
  | succ m ih =>
    obtain ⟨u, hu, hn⟩ := steps_succ_next h
    rw [Nat.succ_add, steps_succ hu]
    exact ih hn

end Sys2Proof.Machine
end

