-- ==== Sys2Proof/Laws/PerInstr.lean ====
section
/-! SUPPORT. One family of lemmas over all operations. CoreOperation: the host operation an operation stands for (R88) is
itself a host operation, is well-formed when the operation is, and has the same descriptor. -/

namespace Sys2Proof.Laws.CoreOperation

/-- What the family says of one operation. -/
def Statement (i : Instr) : Prop :=
  ∀ p : Params, (i.core p).core p = i.core p ∧ encode p (i.core p) = encode p i ∧
    (i.core p).wellFormed = i.wellFormed

theorem xfer (d : Bool) (buf len : Word) : Statement (.xfer d buf len) := fun _ => ⟨rfl, rfl, rfl⟩

theorem wreg (opc : Byte) (ps : List Word) : Statement (.wreg opc ps) := fun _ => ⟨rfl, rfl, rfl⟩

theorem init : Statement .init := fun _ => ⟨rfl, rfl, rfl⟩

theorem flush (x1 y1 x2 y2 : Half) (buf len : Word) : Statement (.flush x1 y1 x2 y2 buf len) :=
  fun _ => ⟨rfl, rfl, rfl⟩

theorem setbl (level : Half) : Statement (.setbl level) := fun _ => ⟨rfl, rfl, rfl⟩

theorem slpout : Statement .slpout := fun _ => ⟨rfl, rfl, rfl⟩

theorem dispon : Statement .dispon := fun _ => ⟨rfl, rfl, rfl⟩

theorem caset (a b : Half) : Statement (.caset a b) := fun _ => ⟨rfl, rfl, rfl⟩

theorem raset (a b : Half) : Statement (.raset a b) := fun _ => ⟨rfl, rfl, rfl⟩

theorem ramwr : Statement .ramwr := fun _ => ⟨rfl, rfl, rfl⟩

theorem pixels (buf len : Word) : Statement (.pixels buf len) := fun _ => ⟨rfl, rfl, rfl⟩

theorem initScriptEntry (opc : Byte) (bs : List Byte) : Statement (.initScriptEntry opc bs) :=
  fun _ => ⟨rfl, rfl, by simp [Instr.core, Instr.wellFormed]⟩

end Sys2Proof.Laws.CoreOperation
end

