-- ==== Sys2Proof/Tests/Slice0.lean ====
section
/-! SUPPORT. The model's own tests: the smoke test of WellFormed, decoding of words written out from spec/30_encoding.md,
one step of each operation with the results of spec/95_test_vectors.md, and a witness for the hypotheses of each statement
of Certificates/Slice0/Obligations.lean. -/

namespace Sys2Proof.Tests

open Sys2Proof Sys2Proof.Machine

/-! Small states. -/

/-- The state an outcome answers, if it answers one. -/
def nextOf : Host.Outcome State Fault Refusal → Option State
  | .next t => some t
  | .fault _ => none
  | .refused _ => none

/-- Reset, but with PHASE = READY. -/
def ready : State := { State.reset with phase := .ready }

/-- READY with the start-up events of INIT in TRACE, as after a run. -/
def booted : State := { ready with trace := initEvents Params.cfgT }

/-- READY with one act of the outside world. -/
def readyWith (x : Input) : State := { ready with inputs := [x] }

/-- READY with an operation running: `us` is what is left of it. -/
def running (us : List MicroOp) : State := { ready with uq := us, busy := true, resp := .pending }

/-- Fields of the state after the submit step. -/
def after {α : Type} (f : State → α) (o : Host.Outcome State Fault Refusal) : Option α := (nextOf o).map f

/-! WellFormed refuses what has no descriptor (R84): `N` has 16 bits. -/

theorem test_wellFormed_wreg_refused : (Instr.wreg 0 (List.replicate 65536 0)).wellFormed = false := by
  rw [Instr.wellFormed, List.length_replicate]; rfl

theorem test_wellFormed_wreg_accepted : (Instr.wreg 0 (List.replicate 65535 0)).wellFormed = true := by
  rw [Instr.wellFormed, List.length_replicate]; rfl

theorem test_wellFormed_entry_refused : (Instr.initScriptEntry 0 (List.replicate 65536 0)).wellFormed = false := by
  rw [Instr.wellFormed, List.length_replicate]; rfl

theorem test_issue_ill_formed_refused (s : State) (rest : List Input) :
    submitInstr (.wreg 0 (List.replicate 65536 0)) rest s = .refused .illFormed := by
  rw [submitInstr, test_wellFormed_wreg_refused]; rfl

/-! Decoding, from the spec's words: 95 section 2.1 and the descriptors of 2.2 to 2.6. -/

theorem test_decode_xfer : decode [0x11000000, 0x20000000, 0x00000003] = .ok (.xfer true 0x20000000 3, []) := rfl

theorem test_decode_wreg : decode [0x20360001, 0x000001A5, 7] = .ok (.wreg 0x36 [0x1A5], [7]) := rfl

theorem test_decode_init : decode [0x30000000] = .ok (.init, []) := rfl

theorem test_decode_flush :
    decode [0x40000000, 0x00EF0117, 0x00EF0117, 0x20001000, 2] = .ok (.flush 239 279 239 279 0x20001000 2, []) := rfl

theorem test_decode_setbl : decode [0x500000FE] = .ok (.setbl 254, []) := rfl

theorem test_decode_reserved_bit : decode [0x12000000, 0, 0] = .error .illegalOp := rfl

theorem test_decode_must_be_zero : decode [0x50010000] = .error .illegalOp := rfl

theorem test_decode_incomplete : decode [0x40000000, 0, 0, 0] = .error .incomplete := rfl

/-- The header table's rows exclude one another (R83): no word matches two of them. -/
theorem test_header_rows_disjoint :
    headerTable.Pairwise (fun r q => (r.pattern &&& r.mask &&& q.mask) ≠ (q.pattern &&& r.mask &&& q.mask)) := by decide

/-! Encoding, from the same vectors. -/

theorem test_encode_caset : encode Params.cfgT (.caset 10 20) = [0x202A0004, 0, 0x0A, 0, 0x14] := by decide

theorem test_encode_raset : encode Params.cfgT (.raset 256 270) = [0x202B0004, 1, 0, 1, 0x0E] := by decide

theorem test_encode_pixels : encode Params.cfgT (.pixels 0x20001000 330) = [0x11000000, 0x20001000, 0x14A] := by decide

theorem test_encode_flush :
    encode Params.cfgT (.flush 10 236 20 250 0x20001000 330) =
      [0x40000000, 0x000A00EC, 0x001400FA, 0x20001000, 0x0000014A] := by decide

/-! Frames of the panel commands (R71, R75; the vectors of 95 section 2.5). -/

theorem test_frame_slpout : decodeFrame Params.cfgT [0x11] = some .slpout := by decide

theorem test_frame_dispon : decodeFrame Params.cfgT [0x29] = some .dispon := by decide

theorem test_frame_caset : decodeFrame Params.cfgT [0x2A, 0x00, 0x0A, 0x00, 0x14] = some (.caset 10 20) := by decide

theorem test_frame_raset : decodeFrame Params.cfgT [0x2B, 0x01, 0x00, 0x01, 0x0E] = some (.raset 256 270) := by decide

theorem test_frame_ramwr : decodeFrame Params.cfgT [0x2C] = some .ramwr := by decide

theorem test_frame_entry : decodeFrame Params.cfgT [0xB2, 0x0C, 0x0C] = some (.initScriptEntry 0xB2 [0x0C, 0x0C]) := by
  decide

/-! Table words (spec/opcode_table.json): 32-bit rows and 8-bit rows. -/

theorem test_table_xfer : decodeTableWord 32 0x10000000 = some (.xfer false 0 0) := by decide

theorem test_table_wreg : decodeTableWord 32 0x20360001 = some (.wreg 0x36 [0]) := by decide

theorem test_table_init : decodeTableWord 32 0x30000000 = some .init := by decide

theorem test_table_flush : decodeTableWord 32 0x40000000 = some (.flush 0 0 0 0 0 0) := by decide

theorem test_table_setbl : decodeTableWord 32 0x500000FF = some (.setbl 255) := by decide

theorem test_table_caset : decodeTableWord 8 0x2A = some (.caset 0 0) := by decide

theorem test_table_entry : decodeTableWord 8 0x36 = some (.initScriptEntry 0x36 []) := by decide

theorem test_table_illegal : decodeTableWord 32 0x60000000 = none := by decide

/-! One step of each operation (95 sections 2.2 to 2.6). -/

theorem test_xfer_queue :
    after (·.uq) (exec (.xfer true 0x20000000 3) ready) =
      some [.cs false, .dc true, .src 0, .src 1, .src 2, .cs true] := by decide

theorem test_xfer_range : after (·.fault) (exec (.xfer true 0xFFFFFFFF 2) ready) = some 0x40 := by decide

theorem test_wreg_truncates :
    after (·.uq) (exec (.wreg 0x36 [0x1A5]) ready) =
      some [.cs false, .dc false, .imm 0x36, .cs true, .fill [0xA5], .cs false, .dc true, .tx 0, .cs true] := by decide

theorem test_wreg_overflow :
    after (·.fault) (exec (.wreg 0xE0 (List.replicate 65 0)) ready) = some 0x08 := by decide

theorem test_init_queue : after (·.uq.length) (exec .init State.reset) = some 46 := by decide

theorem test_init_rerun : after (·.fault) (exec .init ready) = some 0x04 := by decide

theorem test_flush_row_bytes :
    after (fun t => t.uq[16]?) (exec (.flush 239 279 239 279 0x20001000 2) ready) =
      some (some (.fill [0x01, 0x2B, 0x01, 0x2B])) := by decide

theorem test_flush_rect_before_length :
    after (·.fault) (exec (.flush 5 0 4 0 0x20001000 7) ready) = some 0x10 := by decide

theorem test_setbl_square : after (·.uq) (exec (.setbl 255) State.reset) = some [.pwm 0xFE01] := by decide

theorem test_setbl_range : after (·.fault) (exec (.setbl 256) State.reset) = some 0x80 := by decide

theorem test_slpout_queue :
    after (·.uq) (exec .slpout ready) = some [.cs false, .dc false, .imm 0x11, .cs true] := by decide

theorem test_dispon_queue :
    after (·.uq) (exec .dispon ready) = some [.cs false, .dc false, .imm 0x29, .cs true] := by decide

theorem test_caset_bytes :
    after (fun t => (t.uq[2]?, t.uq[4]?)) (exec (.caset 256 479) ready) =
      some (some (.imm 0x2A), some (.fill [0x01, 0x00, 0x01, 0xDF])) := by decide

theorem test_raset_adds_no_offset :
    after (fun t => (t.uq[2]?, t.uq[4]?)) (exec (.raset 0 9) ready) =
      some (some (.imm 0x2B), some (.fill [0x00, 0x00, 0x00, 0x09])) := by decide

theorem test_ramwr_queue :
    after (·.uq) (exec .ramwr ready) = some [.cs false, .dc false, .imm 0x2C, .cs true] := by decide

theorem test_pixels_is_data : after (fun t => t.uq[1]?) (exec (.pixels 0x20001000 2) ready) = some (some (.dc true)) := by
  decide

theorem test_pixels_not_ready : after (·.fault) (exec (.pixels 0x20001000 2) State.reset) = some 0x02 := by decide

theorem test_entry_bytes :
    after (fun t => (t.uq[2]?, t.uq[4]?)) (exec (.initScriptEntry 0xB2 [0x0C, 0x33]) ready) =
      some (some (.imm 0xB2), some (.fill [0x0C, 0x33])) := by decide

/-- 95 program P3 step 9: an illegal header raises IllegalOp and its W0 alone is taken. -/
theorem test_illegal_header :
    after (fun t => (t.fault, t.inputs)) (step (readyWith (.submit [0, 0x30000000]))) =
      some (0x01, [.submit [0x30000000]]) := by decide

/-- R24, R56: 0x80 leaves most significant bit first, and last when SPI_MSB_FIRST is 0. -/
theorem test_serial_bits :
    serialBits Params.cfgT 0x80 = [true, false, false, false, false, false, false, false] ∧
    serialBits { Params.cfgT with spiMsbFirst := false } 0x80 =
      [false, false, false, false, false, false, false, true] := by decide

/-- 95 program P1: the status words after the run. -/
theorem test_status_words :
    [StatusReg.s0, .s1, .s2, .s3].map (fun r => statusWord r { booted with
      resp := .ok
      pwm := { booted.pwm with cmp := 0xFE01 } }) = [0x00000008, 0, 0x0000FE01, 0x00000002] := by decide

/-- 95 program P3, step 8. -/
theorem test_status_error : statusWord .s3 { ready with resp := .err .levelRange } = 0x00000703 := by decide

/-- Host memory: a store reads back, and storing the unlisted byte removes the entry. -/
theorem test_memory :
    Memory.write (Memory.write [] 5 7) 3 9 = [(3, 9), (5, 7)] ∧ Memory.write [(3, 9), (5, 7)] 3 0 = [(5, 7)] := by decide

/-- R39: the counter wraps at PWM_TOP. -/
theorem test_pwm_wrap : nextCount 65535 65535 = 0 ∧ nextCount 9 9 = 0 ∧ nextCount 9 8 = 9 := by decide

/-! Witnesses: for each statement with hypotheses, states and operands that meet them, clause by clause. -/

theorem booted_inv : booted.Inv where
  busy_iff := by decide
  pending_iff := by decide
  seq_busy := by decide
  tx_length := by decide
  tx_fill := by decide
  queue_safe := by decide
  mem_wf := by decide
  wire := ⟨.idle, by decide, by decide, by decide⟩

theorem booted_sequencerInv : booted.SequencerInv := ⟨[], by decide, by decide, by decide⟩

/-- The end of an INIT: only display-on is still to be sent. -/
def starting : State :=
  { booted with
    phase := .seq, busy := true, resp := .pending
    trace := (initEvents Params.cfgT).take 39
    uq := wregOps 0x29 [] }

theorem starting_inv : starting.Inv where
  busy_iff := by decide
  pending_iff := by decide
  seq_busy := by decide
  tx_length := by decide
  tx_fill := by decide
  queue_safe := by decide
  mem_wf := by decide
  wire := ⟨.idle, by decide, by decide, by decide⟩

theorem witness_DecodeEncodeDescriptor :
    (∀ i ∈ [Instr.xfer true 0xFFFFFFFF 0xFFFFFFFF, .wreg 0xFF [], .wreg 0 [0xFFFFFFFF], .init,
      .flush 0 0xFFFF 0xFFFF 0 0 1, .setbl 0xFFFF, .slpout, .dispon, .caset 0 0xFFFF, .raset 0xFFFF 0, .ramwr,
      .pixels 0 0, .initScriptEntry 0x36 [0]], i.wellFormed = true) ∧
    (Instr.wreg 0 (List.replicate 65535 0)).wellFormed = true ∧ State.reset.cfg.params = Params.cfgT :=
  ⟨by decide, test_wellFormed_wreg_accepted, rfl⟩

theorem witness_PanelFrameDecodesBack :
    opcodesDiffer Params.cfgT ∧ isPanelCommand Params.cfgT .slpout ∧ isPanelCommand Params.cfgT .dispon ∧
    isPanelCommand Params.cfgT (.caset 0 0xFFFF) ∧ isPanelCommand Params.cfgT (.raset 0xFFFF 0) ∧
    isPanelCommand Params.cfgT .ramwr ∧ isPanelCommand Params.cfgT (.initScriptEntry 0xB2 [0, 0, 0, 0]) := by
  refine ⟨by unfold opcodesDiffer; decide, trivial, trivial, trivial, trivial, trivial, ?_⟩
  unfold isPanelCommand; decide

/-- One header for each way of being illegal, with its submission. -/
theorem witness_IllegalHeaderIsRejected :
    (∀ w0 ∈ [(0x00000000 : Word), 0x0FFFFFFF, 0x60000000, 0xF0000000, 0x32000000, 0x18000000, 0x21360001, 0x10360000,
      0x30000001, 0x40000100, 0x50010000], illegalHeader w0) ∧
    (readyWith (.submit [0x60000000, 7])).busy = false ∧
    (readyWith (.submit [0x60000000, 7])).inputs = [.submit [0x60000000, 7]] :=
  ⟨by simp [illegalHeader], rfl, rfl⟩

/-- N = 0 and N = 65535; enough words and one word too few; each format. -/
theorem witness_DescriptorLengthFollowsHeader :
    (∀ w0 ∈ [(0x11000000 : Word), 0x20110000, 0x2011FFFF, 0x30000000, 0x40000000, 0x5000FFFF], ¬ illegalHeader w0) ∧
    (3 ≤ [(0 : Word), 0].length + 1 ∧ [(0 : Word)].length + 1 < 3) ∧
    (1 + 65535 ≤ (List.replicate 65535 (0 : Word)).length + 1 ∧
      (List.replicate 65534 (0 : Word)).length + 1 < 1 + 65535) := by
  refine ⟨by simp [illegalHeader], by decide, ?_, ?_⟩ <;> rw [List.length_replicate] <;> decide

theorem witness_StepRunsDecodedOperation :
    ready.busy = false ∧ (readyWith (.submit [0x500000FF])).inputs = [.submit [0x500000FF]] ∧
    decode [0x500000FF] = .ok (.setbl 255, []) ∧ decode [0x500000FF, 0] = .ok (.setbl 255, [0]) ∧ [(0 : Word)] ≠ [] ∧
    (readyWith (.issue .ramwr)).inputs = [.issue .ramwr] ∧ Instr.ramwr.wellFormed = true ∧
    decode [0x40000000, 0, 0, 0] = .error .incomplete ∧
    (Instr.wreg 0 (List.replicate 65536 0)).wellFormed = false :=
  ⟨rfl, rfl, rfl, rfl, by decide, rfl, rfl, rfl, test_wellFormed_wreg_refused⟩

/-- Every row of the table whose word decodes to its own operation. -/
theorem witness_StepRunsPlacedTableWord :
    decodeTableWord 32 0x10000000 = some (.xfer false 0 0) ∧ decodeTableWord 32 0x20110000 = some (.wreg 0x11 []) ∧
    decodeTableWord 32 0x30000000 = some .init ∧ decodeTableWord 32 0x40000000 = some (.flush 0 0 0 0 0 0) ∧
    decodeTableWord 32 0x50000000 = some (.setbl 0) ∧ decodeTableWord 8 0x11 = some .slpout ∧
    decodeTableWord 8 0x29 = some .dispon ∧ decodeTableWord 8 0x2A = some (.caset 0 0) ∧
    decodeTableWord 8 0x2B = some (.raset 0 0) ∧ decodeTableWord 8 0x2C = some .ramwr ∧
    decodeTableWord 8 0x00 = some (.initScriptEntry 0 []) := by decide

theorem witness_SubmissionWaitsWhileBusy :
    ∃ m, (running [.cs true]).busy = true ∧ (running [.cs true]).uq = [.cs true] ∧
      perform (.cs true) { running [.cs true] with inputs := [.submit [0x30000000]] } = .next m :=
  ⟨_, rfl, rfl, rfl⟩

/-- A micro-operation before another and a last one; no act left, a submission waiting, the act of letting the engine go on;
and nothing to do. -/
theorem witness_EngineStepFollowsQueue :
    (running [.cs true]).inputs = [] ∧ (running [.cs true]).busy = true ∧
    { running [.cs true] with inputs := [.submit [0x30000000]] }.inputs = [.submit [0x30000000]] ∧
    { running [.cs true] with inputs := [.issue .ramwr] }.inputs = [.issue .ramwr] ∧
    { running [.cs true] with inputs := [.engine] }.inputs = [.engine] ∧
    (∃ m, perform (.cs false) (running [.cs false, .cs true]) = .next m) ∧
    (∃ m, perform (.cs true) (running [.cs true]) = .next m) ∧
    ready.uq = [] ∧ ready.busy = false ∧ ready.inputs = [] ∧ (readyWith .engine).inputs = [.engine] :=
  ⟨rfl, rfl, rfl, rfl, rfl, ⟨_, rfl⟩, ⟨_, rfl⟩, rfl, rfl, rfl, rfl⟩

/-- The last filled byte of TXBUF, the last host address, a fill of TXBUF_CAP bytes. -/
theorem witness_MicroOperationEffects :
    (3 < { ready with txlen := 4 }.txlen ∧ { ready with txlen := 4 }.txbuf[3]? = some 0) ∧
    { ready with lat := { ready.lat with buf := 0xFFFFFFF0 } }.lat.buf.toNat + 15 < 4294967296 ∧
    (List.replicate 64 (0 : Byte)).length ≤ ready.cfg.params.txbufCap := by decide

/-- `BUF + LEN = 2^32` is accepted, and a transfer of no bytes is one. -/
theorem witness_TransferAccepted :
    isTransfer false 0xFFFFFFFF 1 (.xfer false 0xFFFFFFFF 1) ∧ isTransfer true 0 0 (.pixels 0 0) ∧
    ready.busy = false ∧ ready.phase = .ready ∧
    (0xFFFFFFFF : Word).toNat + (1 : Word).toNat ≤ 4294967296 ∧ (0 : Word).toNat + (0 : Word).toNat ≤ 4294967296 :=
  ⟨.inl rfl, .inr ⟨rfl, rfl⟩, rfl, rfl, by decide, by decide⟩

/-- Each of the seven operations that are one register command. -/
theorem isRegisterCommand_each :
    isRegisterCommand Params.cfgT 0xE0 (List.replicate 64 0) (.wreg 0xE0 (List.replicate 64 0)) ∧
    isRegisterCommand Params.cfgT 0x11 [] .slpout ∧ isRegisterCommand Params.cfgT 0x29 [] .dispon ∧
    isRegisterCommand Params.cfgT 0x2C [] .ramwr ∧
    isRegisterCommand Params.cfgT 0x2A [0, 0, 1, 0xDF] (.caset 0 479) ∧
    isRegisterCommand Params.cfgT 0x2B [0, 0, 1, 0xDF] (.raset 0 479) ∧
    isRegisterCommand Params.cfgT 0xB2 [0x0C] (.initScriptEntry 0xB2 [0x0C]) :=
  ⟨.inl rfl, .inr (.inl ⟨rfl, rfl, rfl⟩), .inr (.inr (.inl ⟨rfl, rfl, rfl⟩)),
    .inr (.inr (.inr (.inl ⟨rfl, rfl, rfl⟩))),
    .inr (.inr (.inr (.inr (.inl ⟨0, 479, rfl, rfl, by decide⟩)))),
    .inr (.inr (.inr (.inr (.inr (.inl ⟨0, 479, rfl, rfl, by decide⟩))))),
    .inr (.inr (.inr (.inr (.inr (.inr ⟨[0x0C], rfl, by decide⟩)))))⟩

/-- No parameter and TXBUF_CAP parameters. -/
theorem witness_RegisterCommandAccepted :
    isRegisterCommand ready.cfg.params 0xE0 (List.replicate 64 0) (.wreg 0xE0 (List.replicate 64 0)) ∧
    ready.busy = false ∧ ready.phase = .ready ∧ (List.replicate 64 (0 : Word)).length ≤ ready.cfg.params.txbufCap ∧
    ([] : List Word).length ≤ ready.cfg.params.txbufCap :=
  ⟨isRegisterCommand_each.1, rfl, rfl, by decide, by decide⟩

theorem witness_InitAccepted : State.reset.busy = false ∧ State.reset.phase = .cold := by decide

/-- The smallest rectangle, the corner pixel and the whole panel; the buffer may end at the top of the space. -/
theorem flushFits_each :
    flushFits Params.cfgT 0 0 0 0 0xFFFFFFFE 2 ∧ flushFits Params.cfgT 239 279 239 279 0x20001000 2 ∧
    flushFits Params.cfgT 0 0 239 279 0x20010000 134400 := by
  unfold flushFits validRect; decide

theorem witness_FlushAccepted :
    ready.busy = false ∧ ready.phase = .ready ∧ flushFits ready.cfg.params 239 279 239 279 0x20001000 2 :=
  ⟨rfl, rfl, flushFits_each.2.1⟩

theorem witness_SetblAccepted :
    State.reset.busy = false ∧ (0 : Half).toNat ≤ 255 ∧ (255 : Half).toNat ≤ 255 := by decide

theorem witness_TransferRunsToEnd :
    isTransfer true 0xFFFFFFFF 1 (.pixels 0xFFFFFFFF 1) ∧ (readyWith (.issue (.pixels 0xFFFFFFFF 1))).busy = false ∧
    (readyWith (.issue (.pixels 0xFFFFFFFF 1))).phase = .ready ∧
    (0xFFFFFFFF : Word).toNat + (1 : Word).toNat ≤ 4294967296 ∧
    (readyWith (.issue (.pixels 0xFFFFFFFF 1))).inputs = [.issue (.pixels 0xFFFFFFFF 1)] :=
  ⟨.inr ⟨rfl, rfl⟩, rfl, rfl, by decide, rfl⟩

theorem witness_RegisterCommandRunsToEnd :
    isRegisterCommand (readyWith (.issue (.caset 0 479))).cfg.params 0x2A [0, 0, 1, 0xDF] (.caset 0 479) ∧
    (Instr.caset 0 479).wellFormed = true ∧ (readyWith (.issue (.caset 0 479))).busy = false ∧
    (readyWith (.issue (.caset 0 479))).phase = .ready ∧
    [(0 : Word), 0, 1, 0xDF].length ≤ (readyWith (.issue (.caset 0 479))).cfg.params.txbufCap ∧
    [(0 : Word), 0, 1, 0xDF] ≠ [] ∧
    (readyWith (.issue (.caset 0 479))).inputs = [.issue (.caset 0 479)] :=
  ⟨isRegisterCommand_each.2.2.2.2.1, rfl, rfl, rfl, by decide, by decide, rfl⟩

theorem witness_RegisterCommandRunsToEnd_no_parameters :
    isRegisterCommand (readyWith (.issue .ramwr)).cfg.params 0x2C [] .ramwr ∧ Instr.ramwr.wellFormed = true ∧
    (readyWith (.issue .ramwr)).busy = false ∧ (readyWith (.issue .ramwr)).phase = .ready ∧
    (readyWith (.issue .ramwr)).inputs = [.issue .ramwr] :=
  ⟨isRegisterCommand_each.2.2.2.1, rfl, rfl, rfl, rfl⟩

theorem witness_InitRunsToEnd :
    { State.reset with inputs := [.issue .init] }.busy = false ∧
    { State.reset with inputs := [.issue .init] }.phase = .cold := by decide

theorem witness_FlushRunsToEnd :
    (readyWith (.issue (.flush 239 279 239 279 0x20001000 2))).busy = false ∧
    (readyWith (.issue (.flush 239 279 239 279 0x20001000 2))).phase = .ready ∧
    flushFits (readyWith (.issue (.flush 239 279 239 279 0x20001000 2))).cfg.params 239 279 239 279 0x20001000 2 ∧
    (readyWith (.issue (.flush 239 279 239 279 0x20001000 2))).inputs =
      [.issue (.flush 239 279 239 279 0x20001000 2)] :=
  ⟨rfl, rfl, flushFits_each.2.1, rfl⟩

theorem witness_SetblRunsToEnd :
    (readyWith (.issue (.setbl 255))).busy = false ∧ (readyWith (.issue (.setbl 255))).phase ≠ .seq ∧
    (255 : Half).toNat ≤ 255 ∧ (readyWith (.issue (.setbl 255))).inputs = [.issue (.setbl 255)] := by decide

theorem witness_AcceptedOperationFinishes :
    booted.Inv ∧ booted.inputs = [] ∧ (∃ t, exec .ramwr booted = .next t ∧ t.busy = true ∧ 0 < t.uq.length) :=
  ⟨booted_inv, rfl, _, rfl, rfl, by decide⟩

theorem witness_FlushEqualsItsPseudoOperations :
    ready.busy = false ∧ ready.phase = .ready ∧ flushFits ready.cfg.params 0 0 239 279 0x20010000 134400 :=
  ⟨rfl, rfl, flushFits_each.2.2⟩

theorem witness_FlushIsIdempotent :
    ready.busy = false ∧ ready.phase = .ready ∧ flushFits ready.cfg.params 0 0 0 0 0xFFFFFFFE 2 :=
  ⟨rfl, rfl, flushFits_each.1⟩

theorem witness_TransferRejections :
    isTransfer true 0xFFFFFFFF 2 (.pixels 0xFFFFFFFF 2) ∧ State.reset.busy = false ∧ State.reset.phase ≠ .ready ∧
    ready.phase = .ready ∧ 4294967296 < (0xFFFFFFFF : Word).toNat + (2 : Word).toNat :=
  ⟨.inr ⟨rfl, rfl⟩, rfl, by decide, rfl, by decide⟩

theorem witness_RegisterCommandRejections :
    isRegisterCommand State.reset.cfg.params 0x11 [] .slpout ∧ State.reset.busy = false ∧ State.reset.phase ≠ .ready ∧
    isRegisterCommand ready.cfg.params 0xE0 (List.replicate 65 0) (.wreg 0xE0 (List.replicate 65 0)) ∧
    ready.phase = .ready ∧ ready.cfg.params.txbufCap < (List.replicate 65 (0 : Word)).length :=
  ⟨isRegisterCommand_each.2.1, rfl, by decide, .inl rfl, rfl, by decide⟩

theorem witness_InitRejection :
    ready.busy = false ∧ ready.phase ≠ .cold ∧ (∃ t, exec .init State.reset = .next t ∧ t.busy = true) ∧
    (∃ t, step (readyWith (.reset ResetLevels.zero)) = .next t ∧ t.phase = .cold) :=
  ⟨rfl, by decide, ⟨_, rfl, rfl⟩, ⟨_, rfl, rfl⟩⟩

/-- One rectangle, length and buffer for each cause, at the boundary (95 section 2.5). -/
theorem witness_FlushRejections :
    State.reset.phase ≠ .ready ∧ ready.busy = false ∧ ready.phase = .ready ∧
    ¬ validRect ready.cfg.params 5 0 4 0 ∧ ¬ validRect ready.cfg.params 0 0 240 0 ∧
    ¬ validRect ready.cfg.params 0 9 0 8 ∧ ¬ validRect ready.cfg.params 0 0 0 280 ∧
    validRect ready.cfg.params 0 0 9 9 ∧
    (199 : Word).toNat ≠ ((9 : Half).toNat - (0 : Half).toNat + 1) * ((9 : Half).toNat - (0 : Half).toNat + 1) *
      ready.cfg.params.bytesPerPixel ∧
    (200 : Word).toNat = ((9 : Half).toNat - (0 : Half).toNat + 1) * ((9 : Half).toNat - (0 : Half).toNat + 1) *
      ready.cfg.params.bytesPerPixel ∧
    4294967296 < (0xFFFFFF39 : Word).toNat + (200 : Word).toNat := by
  unfold validRect; decide

theorem witness_SetblRejection : State.reset.busy = false ∧ 255 < (256 : Half).toNat := by decide

theorem witness_RejectionChangesOnlyFaultAndResp :
    ∃ t, exec .slpout State.reset = .next t ∧ t.busy = false ∧ t.fault = 0x02 := ⟨_, rfl, rfl, rfl⟩

/-- A reset, a step that raises a second cause, and a step that raises none. -/
theorem witness_FaultBitsAreSticky :
    (∃ t, step { ready with fault := 0x42, inputs := [.reset ResetLevels.zero] } = .next t ∧ t.fault = 0x00) ∧
    (∃ t, step { ready with fault := 0x02, inputs := [.issue .init] } = .next t ∧ t.fault = 0x06) ∧
    (∃ t, step { ready with fault := 0x02, inputs := [.issue .ramwr] } = .next t ∧ t.fault = 0x02) :=
  ⟨⟨_, rfl, rfl⟩, ⟨_, rfl, rfl⟩, ⟨_, rfl, rfl⟩⟩

theorem witness_TransferFrame :
    isTransfer true 7 1 (.pixels 7 1) ∧ (∃ t, exec (.pixels 7 1) ready = .next t ∧ t.busy = true) ∧
    (∃ t, exec (.pixels 7 1) State.reset = .next t ∧ t.busy = false) :=
  ⟨.inr ⟨rfl, rfl⟩, ⟨_, rfl, rfl⟩, ⟨_, rfl, rfl⟩⟩

theorem witness_RegisterCommandFrame :
    isRegisterCommand ready.cfg.params 0x2A [0, 0, 1, 0xDF] (.caset 0 479) ∧
    (∃ t, exec (.caset 0 479) ready = .next t ∧ t.busy = true) ∧
    (∃ t, exec (.caset 0 479) State.reset = .next t ∧ t.busy = false) :=
  ⟨isRegisterCommand_each.2.2.2.2.1, ⟨_, rfl, rfl⟩, ⟨_, rfl, rfl⟩⟩

theorem witness_InitFrame :
    (∃ t, exec .init State.reset = .next t ∧ t.busy = true) ∧ (∃ t, exec .init ready = .next t ∧ t.busy = false) :=
  ⟨⟨_, rfl, rfl⟩, ⟨_, rfl, rfl⟩⟩

theorem witness_FlushFrame :
    (∃ t, exec (.flush 239 279 239 279 0x20001000 2) ready = .next t ∧ t.busy = true) ∧
    (∃ t, exec (.flush 5 0 4 0 0x20001000 2) ready = .next t ∧ t.busy = false) :=
  ⟨⟨_, rfl, rfl⟩, ⟨_, rfl, rfl⟩⟩

theorem witness_SetblFrame :
    (∃ t, exec (.setbl 255) State.reset = .next t ∧ t.busy = true) ∧
    (∃ t, exec (.setbl 256) State.reset = .next t ∧ t.busy = false) :=
  ⟨⟨_, rfl, rfl⟩, ⟨_, rfl, rfl⟩⟩

theorem witness_StepKeepsInvariant : starting.Inv ∧ ∃ t, step starting = .next t := ⟨starting_inv, _, rfl⟩

theorem witness_InvariantStepNeverFaults : starting.Inv := starting_inv

theorem witness_StepKeepsSequencerInvariant :
    starting.Inv ∧ starting.SequencerInv ∧ (∃ t, step starting = .next t) ∧ booted.SequencerInv ∧
    State.reset.SequencerInv :=
  ⟨starting_inv, ⟨by decide, by decide⟩, ⟨_, rfl⟩, booted_sequencerInv, ⟨by decide, by decide⟩⟩

theorem witness_StartUpOrder : booted.SequencerInv ∧ booted.phase = .ready := ⟨booted_sequencerInv, rfl⟩

/-- INIT's trace holds an event of each clause but PWM and DONE; the second state ends in these. -/
theorem witness_WireDiscipline :
    booted.Inv ∧ booted.trace = initEvents Params.cfgT ∧
    (∀ e ∈ [Event.byte 0x11, .dc false, .cs false, .cs true, .rst false, .delay 120], e ∈ booted.trace) ∧
    { booted with trace := booted.trace ++ [Event.pwm 1, Event.done] }.Inv :=
  ⟨booted_inv, rfl, by decide,
    { busy_iff := by decide
      pending_iff := by decide
      seq_busy := by decide
      tx_length := by decide
      tx_fill := by decide
      queue_safe := by decide
      mem_wf := by decide
      wire := ⟨.idle, by decide, by decide, by decide⟩ }⟩

/-- A step for each transition of PHASE. -/
theorem witness_PhaseTransitions :
    (∃ t, step { State.reset with inputs := [.issue .init] } = .next t ∧ t.phase = .seq) ∧
    (∃ t, step { starting with uq := [.cs true] } = .next t ∧ t.phase = .ready) ∧
    (∃ t, step (readyWith (.reset ResetLevels.zero)) = .next t ∧ t.phase = .cold) ∧
    (∃ t, step (readyWith .pwmStart) = .next t ∧ t.phase = .ready) :=
  ⟨⟨_, rfl, rfl⟩, ⟨_, rfl, rfl⟩, ⟨_, rfl, rfl⟩, ⟨_, rfl, rfl⟩⟩

/-- A step for each change of DONE. -/
theorem witness_DoneTransitions :
    (∃ t, step (running [.done]) = .next t ∧ t.done = true) ∧
    (∃ t, step { readyWith (.issue (.flush 0 0 0 0 0 2)) with done := true } = .next t ∧ t.done = false) ∧
    (∃ t, step { readyWith (.reset ResetLevels.zero) with done := true } = .next t ∧ t.done = false) ∧
    (∃ t, perform .done ready = .next t) ∧
    (∃ t, exec (.flush 0 0 0 0 0 2) ready = .next t ∧ t.busy = true) :=
  ⟨⟨_, rfl, rfl⟩, ⟨_, rfl, rfl⟩, ⟨_, rfl, rfl⟩, ⟨_, rfl⟩, ⟨_, rfl, rfl⟩⟩

theorem witness_ComparatorWrittenOnlyByUPwm :
    (∃ t, step (running [.pwm 9]) = .next t ∧ t.pwm.cmp = 9) ∧
    (∃ t, step (running [.cs true]) = .next t ∧ t.pwm.cmp = 0) := ⟨⟨_, rfl, rfl⟩, ⟨_, rfl, rfl⟩⟩

theorem witness_ResetLineWrittenOnlyByURst :
    ∃ t, step (running [.rst true]) = .next t ∧ t.lines.rst = true := ⟨_, rfl, rfl⟩

theorem witness_HostMemoryAndParametersAreNotWritten :
    Memory.wf ready.mem = true ∧ (readyWith (.store 0xFFFFFFFF 5)).inputs = [.store 0xFFFFFFFF 5] ∧
    (∃ t, step (readyWith (.store 0xFFFFFFFF 5)) = .next t ∧ t.mem = [(4294967295, 5)]) ∧
    (∃ t, step (running [.cs true]) = .next t) := ⟨rfl, rfl, ⟨_, rfl, rfl⟩, ⟨_, rfl⟩⟩

theorem witness_TraceOnlyGrows :
    ∃ t, step (running [.cs true]) = .next t ∧ t.trace = [.cs true] := ⟨_, rfl, rfl⟩

theorem witness_WindowBytesAreBigEndian :
    ∃ t, exec (.flush 239 279 239 279 0x20001000 2) ready = .next t ∧ t.busy = true := ⟨_, rfl, rfl⟩

theorem witness_SquaringLaw :
    (254 : Half).toNat < (255 : Half).toNat ∧ (255 : Half).toNat ≤ 255 ∧ State.reset.busy = false := by decide

theorem witness_StatusRegisters :
    State.reset.phase = .cold ∧ starting.phase = .seq ∧ ready.phase = .ready ∧
    ready.resp = .none ∧ (running []).resp = .pending ∧ { ready with resp := .ok }.resp = .ok ∧
    { ready with resp := .err .levelRange }.resp = .err .levelRange ∧
    (readyWith (.readStatus .s3)).inputs = [.readStatus .s3] ∧
    (readyWith (.writeStatus .s1 0)).inputs = [.writeStatus .s1 0] := by decide

theorem witness_HardwareReset :
    { running [.cs true] with inputs := [.reset ResetLevels.zero] }.inputs = [.reset ResetLevels.zero] ∧
    (∃ t, step { running [.cs true] with inputs := [.reset ResetLevels.zero], pwm := { ready.pwm with on := true } } =
      .next t ∧ t.pwm.on = true) := ⟨rfl, _, rfl, rfl⟩

theorem witness_BacklightDutyCycle :
    { ready with pwm := { ready.pwm with on := true, cmp := 1 } }.pwm.on = true ∧
    { ready with pwm := { ready.pwm with on := true, cmp := 1 } }.pwm.fresh = false ∧
    { ready with pwm := { ready.pwm with on := true, cmp := 1 } }.pwm.ctr = 0 := by decide

/-- BOOTED with one operation handed over keeps the invariant. -/
theorem booted_inputs_inv (x : List Input) : { booted with inputs := x }.Inv :=
  { busy_iff := booted_inv.busy_iff
    pending_iff := booted_inv.pending_iff
    seq_busy := booted_inv.seq_busy
    tx_length := booted_inv.tx_length
    tx_fill := booted_inv.tx_fill
    queue_safe := booted_inv.queue_safe
    mem_wf := booted_inv.mem_wf
    wire := booted_inv.wire }

theorem witness_FlushAddsSixCalls :
    { booted with inputs := [.issue (.flush 239 279 239 279 0x20001000 2)] }.Inv ∧ booted.busy = false ∧
    booted.phase = .ready ∧ flushFits booted.cfg.params 239 279 239 279 0x20001000 2 :=
  ⟨booted_inputs_inv _, rfl, rfl, flushFits_each.2.1⟩

theorem witness_RegisterCommandAddsOneOrTwoCalls :
    { booted with inputs := [.issue (.caset 0 479)] }.Inv ∧
    isRegisterCommand booted.cfg.params 0x2A [0, 0, 1, 0xDF] (.caset 0 479) ∧ (Instr.caset 0 479).wellFormed = true ∧
    booted.busy = false ∧ booted.phase = .ready ∧ [(0 : Word), 0, 1, 0xDF].length ≤ booted.cfg.params.txbufCap ∧
    isRegisterCommand booted.cfg.params 0x2C [] .ramwr :=
  ⟨booted_inputs_inv _, isRegisterCommand_each.2.2.2.2.1, rfl, rfl, rfl, by decide, isRegisterCommand_each.2.2.2.1⟩

/-- CFG-T meets the constraints; one record for each constraint breaks it. -/
theorem witness_ConfigMeetsConstraints :
    Params.cfgT.ok = true ∧
    (∀ p ∈ [{ Params.cfgT with txbufCap := 3 }, { Params.cfgT with initScript := [(0, List.replicate 65 0)] },
      { Params.cfgT with hres := 0 }, { Params.cfgT with hres := 65537 }, { Params.cfgT with vres := 0 },
      { Params.cfgT with yOffset := 65257 }, { Params.cfgT with bytesPerPixel := 0 }, { Params.cfgT with tRstMs := 9 },
      { Params.cfgT with tSlpoutMs := 119 }], p.ok = false) := by decide

/-- The counter not set up; and set up: at 0, one below PWM_TOP and at PWM_TOP. -/
theorem witness_PwmActsStepTheCounter :
    (readyWith .pwmStart).inputs = [.pwmStart] ∧ (readyWith .pwmTick).inputs = [.pwmTick] ∧
    (readyWith .pwmTick).pwm.on = false ∧ { ready.pwm with on := true }.on = true ∧
    ready.cfg.params.pwmTop = 65535 ∧ (0 : Half) ≠ 65535 ∧ (65534 : Half) ≠ 65535 :=
  ⟨rfl, rfl, rfl, rfl, rfl, by decide, by decide⟩

/-- A count, a reset, the set-up, and a step that changes neither. -/
theorem witness_CounterWrittenOnlyByItsOwnActs :
    after (·.pwm.ctr) (step { readyWith .pwmTick with pwm := { ready.pwm with on := true } }) = some 1 ∧
    after (·.pwm.ctr) (step (readyWith (.reset { ResetLevels.zero with pwmCtr := 7 }))) = some 7 ∧
    after (·.pwm.on) (step (readyWith .pwmStart)) = some true ∧
    after (fun t => (t.pwm.ctr, t.pwm.on)) (step (running [.pwm 9])) = some (0, false) := by decide

end Sys2Proof.Tests
end

section
/-! Proofs, layer 1: each micro-operation as an equation, and one step of the machine flattened to nine cases. -/

namespace Sys2Proof.Machine

/-! One micro-operation (R33). -/

/-- The state each micro-operation leaves, with the condition under which it can be performed (R33). -/
inductive Performed (s : State) : MicroOp → State → Prop where
  | cs (b : Bool) : Performed s (.cs b) ((s.setCs b).emit (.cs b))
  | dc (b : Bool) : Performed s (.dc b) ((s.setDc b).emit (.dc b))
  | rst (b : Bool) : Performed s (.rst b) ((s.setRst b).emit (.rst b))
  | imm (v : Byte) : Performed s (.imm v) (s.shiftOut v)
  | tx (i : Nat) (v : Byte) (filled : i < s.txlen) (stored : s.txbuf[i]? = some v) :
      Performed s (.tx i) (s.shiftOut v)
  | src (i : Nat) (inRange : s.lat.buf.toNat + i < 4294967296) :
      Performed s (.src i) (s.shiftOut (Memory.read s.mem (s.lat.buf.toNat + i)))
  | fill (bs : List Byte) (fits : bs.length ≤ s.cfg.params.txbufCap) : Performed s (.fill bs) (s.fillTx bs)
  | delay (ms : Nat) : Performed s (.delay ms) ((s.loadTimer ms).emit (.delay ms))
  | pwm (v : Half) : Performed s (.pwm v) ((s.writePwm v).emit (.pwm v))
  | done : Performed s .done (s.setDone.emit .done)

theorem perform_eq_next_iff {u : MicroOp} {s t : State} : perform u s = .next t ↔ Performed s u t := by
  constructor
  · intro h
    cases u with
    | cs b => cases h; exact .cs b
    | dc b => cases h; exact .dc b
    | rst b => cases h; exact .rst b
    | imm v => cases h; exact .imm v
    | tx i =>
      simp only [perform] at h
      split at h
      · split at h
        · cases h; exact .tx i _ ‹_› ‹_›
        · cases h
      · cases h
    | src i =>
      simp only [perform] at h
      split at h
      · cases h; exact .src i ‹_›
      · cases h
    | fill bs =>
      simp only [perform] at h
      split at h
      · cases h; exact .fill bs ‹_›
      · cases h
    | delay ms => cases h; exact .delay ms
    | pwm v => cases h; exact .pwm v
    | done => cases h; exact .done
  · intro h
    cases h with
    | tx i v filled stored => simp [perform, filled, stored]
    | src i hi => simp [perform, hi]
    | fill bs fits => simp [perform, fits]
    | _ => rfl

/-- The acts still to come do not matter to a micro-operation. -/
theorem perform_withInputs {u : MicroOp} {s t : State} (h : perform u s = .next t) (l : List Input) :
    perform u (s.withInputs l) = .next (t.withInputs l) := by
  rw [perform_eq_next_iff] at h ⊢
  cases h with
  | tx i v filled stored => exact .tx (s := s.withInputs l) i v filled stored
  | src i hi => exact .src (s := s.withInputs l) i hi
  | fill bs fits => exact .fill (s := s.withInputs l) bs fits
  | _ => constructor

/-- PWM_CTR and the counter's set-up are no micro-operation's (R39). -/
theorem perform_ctr {u : MicroOp} {s t : State} (h : perform u s = .next t) :
    t.pwm.ctr = s.pwm.ctr ∧ t.pwm.on = s.pwm.on := by
  cases perform_eq_next_iff.1 h <;> simp

/-- DONE is uDONE's (R30). -/
theorem perform_done {u : MicroOp} {s t : State} (h : perform u s = .next t) :
    t.done = s.done ∨ (u = .done ∧ t.done = true) := by
  cases perform_eq_next_iff.1 h <;> simp

/-- PWM_CMP is uPWM's (R38). -/
theorem perform_cmp {u : MicroOp} {s t : State} (h : perform u s = .next t) :
    t.pwm.cmp = s.pwm.cmp ∨ ∃ v, u = .pwm v ∧ t.pwm.cmp = v := by
  cases perform_eq_next_iff.1 h <;> simp

/-- RST is uRST's (R23). -/
theorem perform_rst {u : MicroOp} {s t : State} (h : perform u s = .next t) :
    t.lines.rst = s.lines.rst ∨ ∃ b, u = .rst b ∧ t.lines.rst = b := by
  cases perform_eq_next_iff.1 h <;> simp

/-- A micro-operation emits at most one event. -/
theorem opEvents_length_le_one (u : MicroOp) (s : State) : (opEvents u s).length ≤ 1 := by
  cases u <;> simp [opEvents, futureEvents]

/-! One step. -/

/-- One step, with `l` the acts left after it: the engine's two cases of `StepCase` are one here, and a submission is split
into its rejection and its acceptance. -/
inductive StepEffect (s t : State) : Prop where
  | nothing (l : List Input) (h : t = s.withInputs l)
  | performs (u : MicroOp) (rest : List MicroOp) (m : State) (l : List Input) (hq : s.uq = u :: rest)
      (h : perform u (s.withInputs l) = .next m) (ht : t = m.retire rest)
  | rejects (c : Cause) (l : List Input) (hb : s.busy = false) (h : t = (s.withInputs l).raise c)
  | accepts (i : Instr) (l : List Input) (hb : s.busy = false) (h : Accepts (s.withInputs l) i t)
  | read (r : StatusReg) (l : List Input) (h : t = (s.hostRead r).withInputs l)
  | store (a : Word) (v : Byte) (l : List Input) (h : t = (s.hostStore a v).withInputs l)
  | pwmStart (l : List Input) (hin : s.inputs = .pwmStart :: l) (h : t = s.pwmStart.withInputs l)
  | pwmTick (l : List Input) (hin : s.inputs = .pwmTick :: l) (h : t = s.pwmTick.withInputs l)
  | reset (u : ResetLevels) (l : List Input) (hin : s.inputs = .reset u :: l) (h : t = (s.hardReset u).withInputs l)

theorem engineStep_effect {s t : State} {l : List Input} (h : engineStep (s.withInputs l) = .next t) :
    StepEffect s t := by
  obtain ⟨-, -, rfl⟩ | ⟨u, rest, m, hq, hm, rfl⟩ := engineStep_next h
  · exact .nothing l rfl
  · exact .performs u rest m l hq hm rfl

theorem exec_effect {i : Instr} {s t : State} {l : List Input} (h : exec i (s.withInputs l) = .next t) :
    StepEffect s t := by
  obtain ⟨hb, ⟨c, hc⟩ | ⟨j, -, hj⟩⟩ := exec_next h
  · exact .rejects c l hb hc
  · exact .accepts j l hb hj

theorem step_effect {s t : State} (h : step s = .next t) : StepEffect s t := by
  cases step_next h with
  | engine h hin => exact engineStep_effect (l := s.inputs) h
  | letEngine l hin h => exact engineStep_effect h
  | submitted i l hb h hin => exact exec_effect h
  | illegal ws rest l hin hd hb h => exact .rejects .illegalOp l hb h
  | nothing l h => exact .nothing l h
  | read r l hin h => exact .read r l h
  | store a v l hin h => exact .store a v l h
  | pwmStart l hin h => exact .pwmStart l hin h
  | pwmTick l hin h => exact .pwmTick l hin h
  | reset u l hin h => exact .reset u l hin h

end Sys2Proof.Machine
end

section
/-! Proofs, layer 2: every expansion can be performed whatever TXBUF holds, and runs from CS = 1 to CS = 1. -/

namespace Sys2Proof.Machine

/-! Two lists of micro-operations after one another. -/

theorem wireOps_append (w : Wire) (us vs : List MicroOp) :
    wireOps w (us ++ vs) = (wireOps w us).bind fun w' => wireOps w' vs := by
  simp [wireOps, List.foldlM_append]

/-- Shifting bytes inside a call stays inside it. -/
theorem wireOps_map_shift {α : Type} {d : Bool} {f : α → MicroOp} (hf : ∀ a, (Wire.inCall d).nextOp (f a) = some (.inCall d))
    (l : List α) : wireOps (.inCall d) (l.map f) = some (.inCall d) := by
  induction l with
  | nil => rfl
  | cons a l ih => simpa [wireOps, hf] using ih

theorem queueSafe_append {cap base n : Nat} {us vs : List MicroOp} (hu : queueSafe cap base n us = true)
    (hv : ∀ m, queueSafe cap base m vs = true) : queueSafe cap base n (us ++ vs) = true := by
  induction us generalizing n with
  | nil => exact hv n
  | cons u us ih => cases u <;> simp_all [queueSafe]

/-- A list without uFILL can be performed if each of its micro-operations can. -/
theorem queueSafe_map {α : Type} {cap base n : Nat} {f : α → MicroOp} {l : List α} (hfill : ∀ a, (f a).isFill = false)
    (h : ∀ a ∈ l, queueSafe cap base n [f a] = true) : queueSafe cap base n (l.map f) = true := by
  induction l with
  | nil => rfl
  | cons a l ih =>
    have ha := h a (by simp)
    have hl := ih fun b hb => h b (by simp [hb])
    have hn := hfill a
    rw [List.map_cons]
    generalize f a = u at ha hn
    cases u <;> simp_all [queueSafe, MicroOp.isFill]

/-! Transport calls (R100): the bytes of the call decide. -/

/-- A call between CS falling and CS rising, with the bytes `us`. -/
def busCall (d : Bool) (us : List MicroOp) : List MicroOp := [.cs false, .dc d] ++ us ++ [.cs true]

theorem callImm_eq (d : Bool) (vs : List Byte) : callImm d vs = busCall d (vs.map .imm) := rfl
theorem callTx_eq (n : Nat) : callTx n = busCall true ((indices n).map .tx) := rfl
theorem callSrc_eq (d : Bool) (m : Nat) : callSrc d m = busCall d ((indices m).map .src) := rfl

theorem wireOps_busCall {d : Bool} {us : List MicroOp} (h : wireOps (.inCall d) us = some (.inCall d)) :
    wireOps .idle (busCall d us) = some .idle := by
  have hpre : wireOps .idle [.cs false, .dc d] = some (.inCall d) := rfl
  rw [busCall, wireOps_append, wireOps_append, hpre, Option.bind_some, h]
  rfl

theorem queueSafe_busCall {cap base n : Nat} {d : Bool} {us : List MicroOp} (h : queueSafe cap base n us = true) :
    queueSafe cap base n (busCall d us) = true :=
  queueSafe_append (us := [.cs false, .dc d] ++ us) h fun _ => rfl

/-! Whole lists. -/

/-- A list of micro-operations that can be performed at every fill count (R33) and takes the wires from between calls to
between calls (R106). -/
structure Runnable (cap base : Nat) (us : List MicroOp) : Prop where
  safe : ∀ n, queueSafe cap base n us = true
  wire : wireOps .idle us = some .idle

theorem Runnable.append {cap base : Nat} {us vs : List MicroOp} (hu : Runnable cap base us) (hv : Runnable cap base vs) :
    Runnable cap base (us ++ vs) where
  safe n := queueSafe_append (hu.safe n) hv.safe
  wire := by rw [wireOps_append, hu.wire]; exact hv.wire

theorem runnable_callImm (cap base : Nat) (d : Bool) (vs : List Byte) : Runnable cap base (callImm d vs) := by
  rw [callImm_eq]
  exact ⟨fun _ => queueSafe_busCall (queueSafe_map (fun _ => rfl) fun _ _ => rfl),
    wireOps_busCall (wireOps_map_shift (fun _ => rfl) vs)⟩

theorem runnable_callSrc {cap base m : Nat} (d : Bool) (h : base + m ≤ 4294967296) : Runnable cap base (callSrc d m) := by
  have hread : ∀ n, ∀ i ∈ indices m, queueSafe cap base n [.src i] = true := fun n i hi => by
    have : i < m := List.mem_range.1 hi
    simp only [queueSafe, Bool.and_true, decide_eq_true_eq]
    omega
  rw [callSrc_eq]
  exact ⟨fun n => queueSafe_busCall (queueSafe_map (fun _ => rfl) (hread n)),
    wireOps_busCall (wireOps_map_shift (fun _ => rfl) _)⟩

/-- Filling TXBUF with `bs` and sending as many bytes (R111). -/
theorem runnable_fill_callTx {cap base : Nat} {bs : List Byte} (h : bs.length ≤ cap) :
    Runnable cap base ([.fill bs] ++ callTx bs.length) := by
  have hread : ∀ i ∈ indices bs.length, queueSafe cap base bs.length [.tx i] = true := fun i hi => by
    simpa [queueSafe] using List.mem_range.1 hi
  rw [callTx_eq]
  refine ⟨fun n => ?_, wireOps_busCall (wireOps_map_shift (fun _ => rfl) _)⟩
  simpa [queueSafe, h] using queueSafe_busCall (d := true) (queueSafe_map (fun _ => rfl) hread)

theorem runnable_wregOps {cap base : Nat} (opc : Byte) {bs : List Byte} (h : bs.length ≤ cap) :
    Runnable cap base (wregOps opc bs) := by
  refine (runnable_callImm cap base false [opc]).append ?_
  split
  · exact ⟨fun _ => rfl, rfl⟩
  · exact runnable_fill_callTx h

theorem runnable_scriptOps {cap base : Nat} {script : List (Byte × List Byte)} (h : ∀ e ∈ script, e.2.length ≤ cap) :
    Runnable cap base (scriptOps script) := by
  induction script with
  | nil => exact ⟨fun _ => rfl, rfl⟩
  | cons e script ih =>
    exact (runnable_wregOps e.1 (h e (by simp))).append (ih fun e' he' => h e' (by simp [he']))

/-! What a configuration promises (R8). -/

theorem params_ok_iff {p : Params} :
    p.ok = true ↔ 4 ≤ p.txbufCap ∧ (∀ e ∈ p.initScript, e.2.length ≤ p.txbufCap) ∧ 1 ≤ p.hres ∧ p.hres ≤ 65536 ∧
      1 ≤ p.vres ∧ p.vres + p.yOffset ≤ 65536 ∧ 1 ≤ p.bytesPerPixel ∧ 10 ≤ p.tRstMs ∧ 120 ≤ p.tSlpoutMs := by
  simp only [Params.ok, Bool.and_eq_true, List.all_eq_true, decide_eq_true_eq, and_assoc]

theorem four_le_txbufCap (c : Config) : 4 ≤ c.params.txbufCap := (params_ok_iff.1 c.ok).1

theorem script_fits (c : Config) : ∀ e ∈ c.params.initScript, e.2.length ≤ c.params.txbufCap :=
  (params_ok_iff.1 c.ok).2.1

/-! The expansions. -/

theorem runnable_expandInit (c : Config) (base : Nat) : Runnable c.params.txbufCap base (expandInit c.params) := by
  have hpulse : Runnable c.params.txbufCap base (resetPulse c.params) := ⟨fun _ => rfl, rfl⟩
  have hdelay : Runnable c.params.txbufCap base [.delay c.params.tSlpoutMs] := ⟨fun _ => rfl, rfl⟩
  have hcommand (opc : Byte) : Runnable c.params.txbufCap base (wregOps opc []) := runnable_wregOps opc (Nat.zero_le _)
  exact (((hpulse.append (hcommand _)).append hdelay).append (runnable_scriptOps (script_fits c))).append
    (hcommand _)

theorem runnable_expandFlush (c : Config) {base : Nat} (x1 y1 x2 y2 : Half) {len : Word}
    (h : base + len.toNat ≤ 4294967296) :
    Runnable c.params.txbufCap base (expandFlush c.params x1 y1 x2 y2 len) := by
  have hwindow (opc : Byte) (a b : Half) : Runnable c.params.txbufCap base (wregOps opc (windowBytes a b)) :=
    runnable_wregOps opc (four_le_txbufCap c)
  have hramwr : Runnable c.params.txbufCap base (wregOps c.params.cmdRamwr []) := runnable_wregOps _ (Nat.zero_le _)
  exact ((((hwindow _ x1 x2).append (hwindow _ _ _)).append hramwr).append (runnable_callSrc true h)).append
    ⟨fun _ => rfl, rfl⟩

/-- What an accepted operation loads can be performed, and there is something to perform (R33, R178). -/
theorem Accepts.runnable {s t : State} {i : Instr} (h : Accepts s i t) :
    t.uq ≠ [] ∧ Runnable s.cfg.params.txbufCap t.lat.buf.toNat t.uq := by
  cases h with
  | xfer d buf len ready fits => exact ⟨by simp [expandXfer, callSrc], runnable_callSrc d fits⟩
  | wreg opc ps ready fits =>
    exact ⟨by simp [expandWreg, wregOps, callImm], runnable_wregOps opc (by simpa using fits)⟩
  | init cold => exact ⟨by simp [expandInit, resetPulse], runnable_expandInit s.cfg _⟩
  | flush x1 y1 x2 y2 buf len ready rect size fits =>
    exact ⟨by simp [expandFlush], runnable_expandFlush s.cfg x1 y1 x2 y2 fits⟩
  | setbl level fits => exact ⟨by simp [expandSetbl], fun _ => rfl, rfl⟩

end Sys2Proof.Machine
end

section
/-! Proofs, layer 3: the invariant of the machine, kept by each thing a step can do (R29, R32, R33, R37, R106). -/

namespace Sys2Proof.Machine

/-! The acts of the outside world. -/

theorem State.Inv.withInputs {s : State} (h : s.Inv) (l : List Input) : (s.withInputs l).Inv := { h with }

theorem State.Inv.hostRead {s : State} (h : s.Inv) (r : StatusReg) : (s.hostRead r).Inv := { h with }

theorem State.Inv.hostStore {s : State} (h : s.Inv) (a : Word) (v : Byte) : (s.hostStore a v).Inv :=
  { h with mem_wf := write_wf h.mem_wf a v }

theorem State.Inv.pwmStart {s : State} (h : s.Inv) : s.pwmStart.Inv := { h with }

theorem State.Inv.pwmTick {s : State} (h : s.Inv) : s.pwmTick.Inv := by
  unfold State.pwmTick
  split
  · exact { h with }
  · exact h

@[simp] theorem txbufFor_length (u : ResetLevels) (cap : Nat) : (u.txbufFor cap).length = cap := by
  simp [ResetLevels.txbufFor]

/-- A hardware reset establishes the invariant whatever ran before it; host memory is the host's (R44). -/
theorem hardReset_inv {s : State} (hm : Memory.wf s.mem = true) (u : ResetLevels) : (s.hardReset u).Inv where
  busy_iff := by simp
  pending_iff := by simp
  seq_busy := by simp
  tx_length := by simp
  tx_fill := by simp
  queue_safe := rfl
  mem_wf := hm
  wire := ⟨.idle, rfl, rfl, rfl⟩

/-! Submissions. -/

theorem State.Inv.raise {s : State} (h : s.Inv) (hb : s.busy = false) (c : Cause) : (s.raise c).Inv :=
  { h with pending_iff := by simp [hb] }

/-- With no operation running the wires are between calls (R106). -/
theorem State.Inv.wire_idle {s : State} (h : s.Inv) (hb : s.busy = false) :
    wireAfter s.trace = some .idle ∧ Wire.idle.agrees s.lines = true := by
  obtain ⟨w, hw, hl, hq⟩ := h.wire
  have huq : s.uq = [] := by simpa [hb] using h.busy_iff
  rw [huq] at hq
  cases hq
  exact ⟨hw, hl⟩

theorem State.Inv.accept {s : State} (h : s.Inv) (hb : s.busy = false) {lat : Latches} {uq : List MicroOp} (hq : uq ≠ [])
    (hr : Runnable s.cfg.params.txbufCap lat.buf.toNat uq) : (s.accept lat uq).Inv :=
  { h with
    busy_iff := by simpa using hq
    pending_iff := by simp
    seq_busy := fun _ => rfl
    queue_safe := hr.safe _
    wire := ⟨.idle, (h.wire_idle hb).1, (h.wire_idle hb).2, hr.wire⟩ }

/-- Accepting INIT also moves PHASE; BUSY is then 1. -/
theorem State.Inv.startSeq {s : State} (h : s.Inv) (hb : s.busy = true) : s.startSeq.Inv :=
  { h with seq_busy := fun _ => hb }

theorem State.Inv.clearDone {s : State} (h : s.Inv) : s.clearDone.Inv := { h with }

theorem State.Inv.accepts {s t : State} {i : Instr} (h : s.Inv) (hb : s.busy = false) (ha : Accepts s i t) : t.Inv := by
  obtain ⟨hq, hr⟩ := ha.runnable
  cases ha with
  | xfer d buf len ready fits => exact h.accept hb hq hr
  | wreg opc ps ready fits => exact h.accept hb hq hr
  | init cold => exact State.Inv.startSeq (h.accept hb hq hr) rfl
  | flush x1 y1 x2 y2 buf len ready rect size fits => exact h.clearDone.accept hb hq hr
  | setbl level fits => exact h.accept hb hq hr

/-! The engine. -/

/-- What may only stand between calls leaves the wires where they are. -/
theorem between_eq_some {w w' : Wire} (h : w.between = some w') : w' = w := by
  cases w <;> cases h
  rfl

/-- A byte leaves the wires where they are. -/
theorem shift_eq_some {w w' : Wire} (h : w.shift = some w') : w' = w := by
  cases w <;> cases h
  rfl

/-- The event of a micro-operation moves the wires as the micro-operation does. -/
theorem foldlM_opEvents {u : MicroOp} {w w' : Wire} (s : State) (h : w.nextOp u = some w') :
    (opEvents u s).foldlM Wire.next w = some w' := by
  cases u with
  | fill bs =>
    obtain rfl := between_eq_some h
    rfl
  | _ =>
    simp only [opEvents, futureEvents, List.foldlM_cons, List.foldlM_nil, bind_pure]
    exact h

/-- CS and DC stay in step with the place in the call (R21, R22). -/
theorem perform_agrees {u : MicroOp} {s t : State} {w w' : Wire} (h : perform u s = .next t)
    (ha : w.agrees s.lines = true) (hw : w.nextOp u = some w') : w'.agrees t.lines = true := by
  cases perform_eq_next_iff.1 h with
  | cs b => cases w <;> cases b <;> cases hw <;> rfl
  | dc b =>
    cases w <;> cases hw
    simpa [Wire.agrees] using ha
  | imm v | tx i v filled stored | src i inRange =>
    obtain rfl := shift_eq_some hw
    exact ha
  | _ =>
    obtain rfl := between_eq_some hw
    exact ha

/-- TXBUF keeps its capacity, and its fill count stays within it (R37). -/
theorem perform_txbuf {u : MicroOp} {s t : State} {cap : Nat} (h : perform u s = .next t) (hcap : cap = s.cfg.params.txbufCap)
    (hl : s.txbuf.length = cap) (hn : s.txlen ≤ cap) : t.txbuf.length = cap ∧ t.txlen ≤ cap := by
  cases perform_eq_next_iff.1 h with
  | fill bs fits =>
    simp only [fillTx_txbuf, fillTx_txlen, List.length_append, List.length_drop]
    omega
  | _ => exact ⟨hl, hn⟩

/-- What is left after the head can be performed at the fill count the head leaves. -/
theorem perform_queueSafe {u : MicroOp} {rest : List MicroOp} {s t : State} {cap base : Nat} (h : perform u s = .next t)
    (hq : queueSafe cap base s.txlen (u :: rest) = true) : queueSafe cap base t.txlen rest = true := by
  cases perform_eq_next_iff.1 h <;> simp_all [queueSafe]

/-- Performing the head of UQ and taking it off keeps the invariant, also when it was the last one. -/
theorem State.Inv.retire {s m : State} {u : MicroOp} {rest : List MicroOp} (h : s.Inv) (hq : s.uq = u :: rest)
    (hm : perform u s = .next m) : (m.retire rest).Inv := by
  have hp := perform_next hm
  have hbusy : s.busy = true := h.busy_iff.2 (by simp [hq])
  have htx := perform_txbuf hm rfl h.tx_length h.tx_fill
  have hsafe := h.queue_safe
  obtain ⟨w, hw, hl, hops⟩ := h.wire
  rw [hq] at hsafe hops
  obtain ⟨w', hu, hrest⟩ : ∃ w', w.nextOp u = some w' ∧ wireOps w' rest = some .idle := by
    simpa [wireOps, List.foldlM_cons, Option.bind_eq_some_iff] using hops
  have hwire : ∃ w, wireAfter m.trace = some w ∧ w.agrees m.lines = true ∧ wireOps w rest = some .idle := by
    refine ⟨w', ?_, perform_agrees hm hl hu, hrest⟩
    rw [hp.trace, wireAfter, List.foldlM_append, ← wireAfter, hw]
    exact foldlM_opEvents s hu
  have hqueue := perform_queueSafe hm hsafe
  refine
    { busy_iff := ?_
      pending_iff := ?_
      seq_busy := ?_
      tx_length := by simpa [hp.cfg] using htx.1
      tx_fill := by simpa [hp.cfg] using htx.2
      queue_safe := by simpa [hp.cfg, hp.lat] using hqueue
      mem_wf := by simpa [hp.mem] using h.mem_wf
      wire := by simpa using hwire }
  · cases rest <;> simp [hp.busy, hbusy]
  · cases rest <;> simp [hp.busy, hp.resp, h.pending_iff]
  · cases rest with
    | nil => cases hphase : m.phase <;> simp [hphase, Phase.settle]
    | cons v vs => simp [hp.busy, hbusy]

/-! One step. -/

theorem State.Inv.step {s t : State} (h : s.Inv) (hs : step s = .next t) : t.Inv := by
  cases step_effect hs with
  | nothing l ht => exact ht ▸ h.withInputs l
  | performs u rest m l hq hm ht => exact ht ▸ (h.withInputs l).retire hq hm
  | rejects c l hb ht => exact ht ▸ (h.withInputs l).raise hb c
  | accepts i l hb ha => exact (h.withInputs l).accepts hb ha
  | read r l ht => exact ht ▸ (h.hostRead r).withInputs l
  | store a v l ht => exact ht ▸ (h.hostStore a v).withInputs l
  | pwmStart l hin ht => exact ht ▸ h.pwmStart.withInputs l
  | pwmTick l hin ht => exact ht ▸ h.pwmTick.withInputs l
  | reset u l hin ht => exact ht ▸ (hardReset_inv h.mem_wf u).withInputs l

/-- Settles O37, by cases over what a step can do. -/
theorem stepKeepsInvariant : Obligations.StepKeepsInvariant := fun _ _ h hs => h.step hs

end Sys2Proof.Machine
end

section
/-! Proofs, layer 4: what each operation's submit step leaves unchanged (R26, R36, R171). -/

namespace Sys2Proof.Machine

theorem isTransfer.core {d : Bool} {buf len : Word} {i : Instr} (h : isTransfer d buf len i) (p : Params) :
    i.core p = .xfer d buf len := by
  obtain rfl | ⟨rfl, rfl⟩ := h <;> rfl

theorem isRegisterCommand.core {p : Params} {opc : Byte} {ps : List Word} {i : Instr} (h : isRegisterCommand p opc ps i) :
    i.core p = .wreg opc ps := by
  obtain rfl | ⟨rfl, rfl, rfl⟩ | ⟨rfl, rfl, rfl⟩ | ⟨rfl, rfl, rfl⟩ | ⟨a, b, rfl, rfl, rfl⟩ | ⟨a, b, rfl, rfl, rfl⟩ |
    ⟨bs, rfl, rfl⟩ := h <;> rfl

/-- An operation that answers, by the host operation it stands for: it was rejected, or accepted as that operation. -/
theorem exec_next_of_core {i j : Instr} {s t : State} (hj : i.core s.cfg.params = j) (h : exec i s = .next t) :
    s.busy = false ∧ ((∃ c, t = s.raise c) ∨ Accepts s j t) := by
  obtain ⟨hb, hc | ⟨k, hk, ha⟩⟩ := exec_next h
  · exact ⟨hb, .inl hc⟩
  · exact ⟨hb, .inr (hj ▸ hk ▸ ha)⟩

theorem raise_frame (s : State) (c : Cause) : SubmissionFrame s (s.raise c) where
  cfg := rfl
  lines := rfl
  txbuf := rfl
  txlen := rfl
  pwm := rfl
  tmr := rfl
  trace := rfl
  mem _ := rfl
  inputs := rfl
  readback := rfl
  freeCount := rfl
  fault := .inr ⟨c, rfl, rfl⟩

theorem accept_frame (s : State) (lat : Latches) (uq : List MicroOp) : SubmissionFrame s (s.accept lat uq) where
  cfg := rfl
  lines := rfl
  txbuf := rfl
  txlen := rfl
  pwm := rfl
  tmr := rfl
  trace := rfl
  mem _ := rfl
  inputs := rfl
  readback := rfl
  freeCount := rfl
  fault := .inl rfl

theorem Accepts.frame {s t : State} {i : Instr} (h : Accepts s i t) : SubmissionFrame s t := by
  cases h with
  | init cold => exact { accept_frame s s.lat.loadInit (expandInit s.cfg.params) with }
  | flush x1 y1 x2 y2 buf len ready rect size fits =>
    exact { accept_frame s (s.lat.loadFlush x1 y1 x2 y2 buf len) (expandFlush s.cfg.params x1 y1 x2 y2 len) with }
  | _ => exact accept_frame _ _ _

/-- No submission that answers changes anything outside the frame. -/
theorem exec_frame {i : Instr} {s t : State} (h : exec i s = .next t) : SubmissionFrame s t := by
  obtain ⟨-, ⟨c, rfl⟩ | ⟨j, -, ha⟩⟩ := exec_next h
  · exact raise_frame s c
  · exact ha.frame

/-- Settles O31: a rejection changes no latch, and an acceptance is XFER's. -/
theorem transferFrame : Obligations.TransferFrame := by
  intro d buf len i s t hi h
  refine ⟨exec_frame h, ?_⟩
  obtain ⟨-, ⟨c, rfl⟩ | ha⟩ := exec_next_of_core (hi.core _) h
  · simp
  · cases ha
    simp [Latches.loadXfer]

/-- Settles O32: a rejection changes no latch, and an acceptance is WREG's. -/
theorem registerCommandFrame : Obligations.RegisterCommandFrame := by
  intro opc ps i s t hi h
  refine ⟨exec_frame h, ?_⟩
  obtain ⟨-, ⟨c, rfl⟩ | ha⟩ := exec_next_of_core hi.core h
  · simp
  · cases ha
    simp [Latches.loadWreg]

/-- Settles O33: only the acceptance changes PHASE, and it leaves BUSY = 1. -/
theorem initFrame : Obligations.InitFrame := by
  intro s t h
  refine ⟨exec_frame h, ?_⟩
  obtain ⟨-, ⟨c, rfl⟩ | ha⟩ := exec_next_of_core rfl h
  · simp
  · cases ha
    simp [Latches.loadInit]

/-- Settles O34: only the acceptance changes DONE, and it leaves BUSY = 1. -/
theorem flushFrame : Obligations.FlushFrame := by
  intro x1 y1 x2 y2 buf len s t h
  refine ⟨exec_frame h, ?_⟩
  obtain ⟨-, ⟨c, rfl⟩ | ha⟩ := exec_next_of_core rfl h
  · simp
  · cases ha
    simp [Latches.loadFlush]

/-- Settles O35: a rejection changes no latch, and an acceptance is SETBL's. -/
theorem setblFrame : Obligations.SetblFrame := by
  intro level s t h
  refine ⟨exec_frame h, ?_⟩
  obtain ⟨-, ⟨c, rfl⟩ | ha⟩ := exec_next_of_core rfl h
  · simp
  · cases ha
    simp [Latches.loadSetbl]

end Sys2Proof.Machine
end

section
/-! Proofs, layer 5: what one step can change (R23, R28, R30, R31, R38, R39, R41). -/

namespace Sys2Proof.Machine

/-! The micro-operations an expansion contains. -/

/-- The micro-operations of transport calls and of TXBUF: all but uRST, uDELAY, uPWM and uDONE. -/
def MicroOp.isBus : MicroOp → Bool
  | .cs _ => true
  | .dc _ => true
  | .rst _ => false
  | .imm _ => true
  | .tx _ => true
  | .src _ => true
  | .fill _ => true
  | .delay _ => false
  | .pwm _ => false
  | .done => false

theorem isBus_of_mem_busCall {d : Bool} {α : Type} {f : α → MicroOp} (hf : ∀ a, (f a).isBus = true) {l : List α}
    {u : MicroOp} (h : u ∈ busCall d (l.map f)) : u.isBus = true := by
  simp only [busCall, List.mem_append, List.mem_cons, List.not_mem_nil, or_false, List.mem_map] at h
  obtain ((rfl | rfl) | ⟨a, -, rfl⟩) | rfl := h
  · rfl
  · rfl
  · exact hf a
  · rfl

theorem isBus_of_mem_wregOps {opc : Byte} {bs : List Byte} {u : MicroOp} (h : u ∈ wregOps opc bs) : u.isBus = true := by
  obtain h | h := List.mem_append.1 h
  · exact isBus_of_mem_busCall (f := .imm) (fun _ => rfl) h
  · split at h
    · cases h
    · obtain h | h := List.mem_append.1 h
      · rw [List.mem_singleton.1 h]; rfl
      · exact isBus_of_mem_busCall (f := .tx) (fun _ => rfl) h

theorem isBus_of_mem_expandXfer {d : Bool} {len : Word} {u : MicroOp} (h : u ∈ expandXfer d len) : u.isBus = true :=
  isBus_of_mem_busCall (f := .src) (fun _ => rfl) h

theorem isBus_of_mem_expandWreg {opc : Byte} {ps : List Word} {u : MicroOp} (h : u ∈ expandWreg opc ps) :
    u.isBus = true :=
  isBus_of_mem_wregOps h

theorem isBus_or_done_of_mem_expandFlush {p : Params} {x1 y1 x2 y2 : Half} {len : Word} {u : MicroOp}
    (h : u ∈ expandFlush p x1 y1 x2 y2 len) : u.isBus = true ∨ u = .done := by
  simp only [expandFlush, List.mem_append, List.mem_singleton] at h
  obtain (((h | h) | h) | h) | h := h
  · exact .inl (isBus_of_mem_wregOps h)
  · exact .inl (isBus_of_mem_wregOps h)
  · exact .inl (isBus_of_mem_wregOps h)
  · exact .inl (isBus_of_mem_busCall (f := .src) (fun _ => rfl) h)
  · exact .inr h

theorem isBus_or_isSequencer_of_mem_expandInit {p : Params} {u : MicroOp} (h : u ∈ expandInit p) :
    u.isBus = true ∨ u.isSequencer = true := by
  simp only [expandInit, List.mem_append, List.mem_singleton, scriptOps, List.mem_flatMap] at h
  obtain (((h | h) | rfl) | ⟨e, -, h⟩) | h := h
  · exact .inr (List.all_eq_true.1 (rfl : (resetPulse p).all MicroOp.isSequencer = true) u h)
  · exact .inl (isBus_of_mem_wregOps h)
  · exact .inr rfl
  · exact .inl (isBus_of_mem_wregOps h)
  · exact .inl (isBus_of_mem_wregOps h)

/-! FAULT (R31, R176). -/

theorem step_reset {s : State} {u : ResetLevels} {rest : List Input} (hin : s.inputs = .reset u :: rest) :
    step s = .next ((s.hardReset u).withInputs rest) := by
  simp [step, stepOnce, hin, takeInput]

theorem step_fault_bits {s t : State} (h : step s = .next t) (hr : ∀ u rest, s.inputs ≠ .reset u :: rest) :
    t.fault = s.fault ∨ ∃ c : Cause, t.fault = setFaultBit s.fault c ∧ t.resp = .err c ∧ s.busy = false := by
  cases step_effect h with
  | performs u rest m l hq hm ht => exact .inl (by simp [ht, (perform_next hm).fault])
  | rejects c l hb ht => exact .inr ⟨c, by simp [ht], by simp [ht], hb⟩
  | accepts i l hb ha => cases ha <;> exact .inl rfl
  | reset u l hin ht => exact absurd hin (hr u l)
  | _ => exact .inl (by simp [*])

theorem getLsbD_setFaultBit {f : BitVec 8} {k : Nat} (c : Cause) (h : f.getLsbD k = true) :
    (setFaultBit f c).getLsbD k = true := by
  simp [setFaultBit, h]

/-- Settles O30, by cases over what a step can do: only a rejection touches FAULT, and it sets a bit. -/
theorem faultBitsAreSticky : Obligations.FaultBitsAreSticky := by
  intro s t h
  refine ⟨fun u rest hin => ?_, fun hr => ?_⟩
  · rw [step_reset hin] at h
    cases h
    rfl
  · have hbits := step_fault_bits h hr
    refine ⟨fun k hk => ?_, hbits⟩
    obtain hf | ⟨c, hf, -⟩ := hbits
    · rwa [hf]
    · rw [hf]
      exact getLsbD_setFaultBit c hk

/-! PHASE (R28). -/

/-- Settles O42, by cases over what a step can do: PHASE moves with INIT's acceptance, the last micro-operation of the queue,
and reset. -/
theorem phaseTransitions : Obligations.PhaseTransitions := by
  intro s t h
  refine ⟨by cases t.phase <;> decide, ?_⟩
  cases step_effect h with
  | performs u rest m l hq hm ht =>
    have hphase : m.phase = s.phase := (perform_next hm).phase
    subst ht
    cases rest with
    | nil => cases hs : s.phase <;> simp [hq, hs, hphase, Phase.settle]
    | cons v vs => exact .inl hphase
  | accepts i l hb ha =>
    cases ha with
    | init cold => exact .inr (.inl ⟨cold, rfl, hb, rfl, rfl⟩)
    | _ => exact .inl rfl
  | reset u l hin ht => exact .inr (.inr (.inr ⟨by simp [ht], u, l, hin⟩))
  | _ => exact .inl (by simp [*])

/-! DONE (R30). -/

theorem step_done {s t : State} (h : step s = .next t) :
    t.done = s.done ∨
    (t.done = true ∧ s.uq.head? = some .done) ∨
    (t.done = false ∧ s.busy = false ∧ t.busy = true ∧ t.lat.op = 4) ∨
    (t.done = false ∧ ∃ u rest, s.inputs = .reset u :: rest) := by
  cases step_effect h with
  | performs u rest m l hq hm ht =>
    obtain hd | ⟨rfl, hd⟩ := perform_done hm
    · exact .inl (by simp [ht, hd])
    · exact .inr (.inl ⟨by simp [ht, hd], by simp [hq]⟩)
  | accepts i l hb ha =>
    cases ha with
    | flush x1 y1 x2 y2 buf len ready rect size fits => exact .inr (.inr (.inl ⟨rfl, hb, rfl, rfl⟩))
    | _ => exact .inl rfl
  | reset u l hin ht => exact .inr (.inr (.inr ⟨by simp [ht], u, l, hin⟩))
  | _ => exact .inl (by simp [*])

theorem getLast?_expandFlush (p : Params) (x1 y1 x2 y2 : Half) (len : Word) :
    (expandFlush p x1 y1 x2 y2 len).getLast? = some .done :=
  List.getLast?_concat

/-- A FLUSH that leaves BUSY = 1 was accepted: DONE is cleared and its queue ends with uDONE. -/
theorem exec_flush_busy {x1 y1 x2 y2 : Half} {buf len : Word} {s t : State}
    (h : exec (.flush x1 y1 x2 y2 buf len) s = .next t) (hbusy : t.busy = true) :
    t.done = false ∧ t.uq.getLast? = some .done := by
  obtain ⟨hb, ⟨c, rfl⟩ | ha⟩ := exec_next_of_core rfl h
  · simp [hb] at hbusy
  · cases ha
    exact ⟨rfl, getLast?_expandFlush ..⟩

/-- Settles O43: `step_done` for the transitions, and the expansions by the micro-operations they contain. -/
theorem doneTransitions : Obligations.DoneTransitions := by
  refine ⟨fun s t h => step_done h, ?_, fun x1 y1 x2 y2 buf len s t h hb => exec_flush_busy h hb, ?_, ?_, ?_, ?_⟩
  · intro s t h
    cases h
    rfl
  · exact fun d len h => absurd (isBus_of_mem_expandXfer h) (by decide)
  · exact fun opc ps h => absurd (isBus_of_mem_expandWreg h) (by decide)
  · exact fun p h => absurd (isBus_or_isSequencer_of_mem_expandInit h) (by decide)
  · simp [expandSetbl]

/-! PWM_CMP (R38). -/

theorem step_cmp {s t : State} (h : step s = .next t) :
    t.pwm.cmp = s.pwm.cmp ∨ (∃ v, s.uq.head? = some (.pwm v) ∧ t.pwm.cmp = v) ∨
    (t.pwm.cmp = 0 ∧ ∃ u rest, s.inputs = .reset u :: rest) := by
  cases step_effect h with
  | performs u rest m l hq hm ht =>
    obtain hc | ⟨v, rfl, hc⟩ := perform_cmp hm
    · exact .inl (by simp [ht, hc])
    · exact .inr (.inl ⟨v, by simp [hq], by simp [ht, hc]⟩)
  | accepts i l hb ha => exact .inl (by simp [ha.frame.pwm])
  | reset u l hin ht => exact .inr (.inr ⟨by simp [ht], u, l, hin⟩)
  | _ => exact .inl (by simp [*])

theorem statusWord_s2_toNat (s : State) : (statusWord .s2 s).toNat = s.pwm.cmp.toNat :=
  (BitVec.toNat_append 0#16 s.pwm.cmp).trans (by simp)

/-- Settles O44: `step_cmp` for the transitions, and the expansions by the micro-operations they contain. -/
theorem comparatorWrittenOnlyByUPwm : Obligations.ComparatorWrittenOnlyByUPwm := by
  refine ⟨fun s t h => step_cmp h, ?_, ?_, ?_, ?_, fun level => ⟨_, rfl⟩, statusWord_s2_toNat⟩
  · intro v d len h
    cases isBus_of_mem_expandXfer h
  · intro v opc ps h
    cases isBus_of_mem_expandWreg h
  · intro v p h
    obtain h | h := isBus_or_isSequencer_of_mem_expandInit h <;> cases h
  · intro v p x1 y1 x2 y2 len h
    obtain h | h := isBus_or_done_of_mem_expandFlush h <;> cases h

/-! RST (R23). -/

theorem step_rst {s t : State} (h : step s = .next t) :
    t.lines.rst = s.lines.rst ∨ (∃ b, s.uq.head? = some (.rst b) ∧ t.lines.rst = b) ∨
    (∃ u rest, s.inputs = .reset u :: rest) := by
  cases step_effect h with
  | performs u rest m l hq hm ht =>
    obtain hr | ⟨b, rfl, hr⟩ := perform_rst hm
    · exact .inl (by simp [ht, hr])
    · exact .inr (.inl ⟨b, by simp [hq], by simp [ht, hr]⟩)
  | accepts i l hb ha => exact .inl (by simp [ha.frame.lines])
  | reset u l hin ht => exact .inr (.inr ⟨u, l, hin⟩)
  | _ => exact .inl (by simp [*])

/-- Settles O45: `step_rst` for the transitions, and the expansions by the micro-operations they contain. -/
theorem resetLineWrittenOnlyByURst : Obligations.ResetLineWrittenOnlyByURst := by
  refine ⟨fun s t h => step_rst h, ?_, ?_, ?_, ?_⟩
  · intro b d len h
    cases isBus_of_mem_expandXfer h
  · intro b opc ps h
    cases isBus_of_mem_expandWreg h
  · simp [expandSetbl]
  · intro b p x1 y1 x2 y2 len h
    obtain h | h := isBus_or_done_of_mem_expandFlush h <;> cases h

/-! TRACE (R41). -/

/-- Settles O47, by cases over what a step can do: only the engine emits, and each micro-operation at most one event. -/
theorem traceOnlyGrows : Obligations.TraceOnlyGrows := by
  intro s t h hr
  cases step_effect h with
  | performs u rest m l hq hm ht =>
    exact ⟨opEvents u (s.withInputs l), by simp [ht, (perform_next hm).trace], opEvents_length_le_one u _⟩
  | accepts i l hb ha => exact ⟨[], by simp [ha.frame.trace], by simp⟩
  | reset u l hin ht => exact absurd hin (hr u l)
  | _ => exact ⟨[], by simp [*], by simp⟩

/-! PWM_CTR (R39, R206). -/

/-- A count changes PWM_CTR only if the platform has set the counter up (R206). -/
theorem pwmTick_ctr (s : State) : s.pwmTick.pwm.ctr = s.pwm.ctr ∨ s.pwm.on = true := by
  unfold State.pwmTick
  split
  · exact .inr ‹_›
  · exact .inl rfl

/-- Settles O59, by cases over what a step can do. -/
theorem counterWrittenOnlyByItsOwnActs : Obligations.CounterWrittenOnlyByItsOwnActs := by
  intro s t h
  cases step_effect h with
  | performs u rest m l hq hm ht => simp [ht, perform_ctr hm]
  | accepts i l hb ha => simp [ha.frame.pwm]
  | pwmStart l hin ht => exact ⟨.inl (by simp [ht]), .inr ⟨by simp [ht], l, hin⟩⟩
  | pwmTick l hin ht =>
    subst ht
    exact ⟨(pwmTick_ctr s).imp_right fun hon => .inl ⟨hon, l, hin⟩, .inl (by simp)⟩
  | reset u l hin ht => exact ⟨.inr (.inr ⟨u, l, hin, by simp [ht]⟩), .inl (by simp [ht])⟩
  | _ => simp [*]

end Sys2Proof.Machine
end

section
/-! Proofs, layer 6: one step, by the act that stands first in `inputs` (R35, R36, R39, R42, R44). -/

namespace Sys2Proof.Machine

theorem step_of_inputs_nil {s : State} (hin : s.inputs = []) : step s = engineStep s := by
  simp [step, stepOnce, hin]

theorem step_of_inputs_cons {s : State} {x : Input} {rest : List Input} (hin : s.inputs = x :: rest) :
    step s = takeInput x rest s := by
  simp [step, stepOnce, hin]

/-! Submissions (R36, R64, R80). -/

theorem step_submit_ready {s : State} {ws : List Word} {rest : List Input} (hin : s.inputs = .submit ws :: rest)
    (hb : s.busy = false) : step s = submitWords ws rest s := by
  simp [step_of_inputs_cons hin, takeInput, hb]

theorem step_issue_ready {s : State} {i : Instr} {rest : List Input} (hin : s.inputs = .issue i :: rest)
    (hb : s.busy = false) : step s = submitInstr i rest s := by
  simp [step_of_inputs_cons hin, takeInput, hb]

theorem submitWords_ok {ws more : List Word} {i : Instr} (hd : decode ws = .ok (i, more)) (rest : List Input) (s : State) :
    submitWords ws rest s = exec i (s.withInputs (restInputs more rest)) := by
  simp [submitWords, hd]

theorem submitInstr_wellFormed {i : Instr} (hi : i.wellFormed = true) (rest : List Input) (s : State) :
    submitInstr i rest s = exec i (s.withInputs rest) := by
  simp [submitInstr, hi]

theorem restInputs_of_ne_nil {more : List Word} (hm : more ≠ []) (rest : List Input) :
    restInputs more rest = .submit more :: rest := by
  cases more with
  | nil => exact absurd rfl hm
  | cons w ws => rfl

/-- Settles O6: what a submission does, clause by clause. -/
theorem stepRunsDecodedOperation : Obligations.StepRunsDecodedOperation := by
  intro s rest i hb
  refine ⟨fun ws hin hd => ?_, fun ws more hin hd hm => ?_, fun hin hi => ?_, fun ws hin hd => ?_, fun hin hi => ?_⟩
  · rw [step_submit_ready hin hb, submitWords_ok hd]
    rfl
  · rw [step_submit_ready hin hb, submitWords_ok hd, restInputs_of_ne_nil hm]
    rfl
  · rw [step_issue_ready hin hb, submitInstr_wellFormed hi]
    rfl
  · simp [step_submit_ready hin hb, submitWords, hd]
  · simp [step_issue_ready hin hb, submitInstr, hi]

/-! A table row's operation (R83, R84). -/

theorem wordsOf_length (k v : Nat) : (wordsOf k v).length = k := by
  induction k generalizing v with
  | zero => rfl
  | succ k ih => simp [wordsOf, ih]

/-- A whole descriptor with no word after it leaves no word over (R84). -/
theorem decode_exact_length {w0 : Word} {ws more : List Word} {i : Instr}
    (hn : descriptorLength w0 = some (ws.length + 1)) (h : decode (w0 :: ws) = .ok (i, more)) : more = [] := by
  unfold decode at h
  unfold descriptorLength at hn
  cases hf : headerFormat w0 with
  | none => simp [hf] at hn
  | some format =>
    simp only [hf] at h hn
    cases format with
    | x =>
      obtain ⟨a, b, rfl⟩ : ∃ a b, ws = [a, b] := by
        match ws, hn with
        | [a, b], _ => exact ⟨a, b, rfl⟩
      cases h
      rfl
    | w =>
      have hlen : ws.length = (headerImm w0).toNat := by simp at hn; omega
      rw [if_pos (Nat.le_of_eq hlen.symm)] at h
      cases h
      simp [hlen]
    | z =>
      cases h
      exact List.length_eq_zero_iff.1 (by simpa using hn.symm)
    | f =>
      obtain ⟨a, b, c, d, rfl⟩ : ∃ a b c d, ws = [a, b, c, d] := by
        match ws, hn with
        | [a, b, c, d], _ => exact ⟨a, b, c, d, rfl⟩
      cases h
      rfl
    | l =>
      cases h
      exact List.length_eq_zero_iff.1 (by simpa using hn.symm)

/-- The words of a table row are one descriptor (R84). -/
theorem decode_tableWords {nbits w : Nat} {i : Instr} {more : List Word}
    (h : decode (tableWords nbits w) = .ok (i, more)) : more = [] := by
  unfold tableWords at h
  generalize w % 2 ^ nbits = v at h
  cases hn : descriptorLength (BitVec.ofNat 32 v) with
  | none =>
    have hf : headerFormat (BitVec.ofNat 32 v) = none := by
      unfold descriptorLength at hn
      split at hn <;> simp_all
    simp [hn, wordsOf, decode, hf] at h
  | some n =>
    obtain ⟨k, rfl⟩ : ∃ k, n = k + 1 := by
      refine ⟨n - 1, ?_⟩
      unfold descriptorLength at hn
      split at hn <;> simp at hn <;> omega
    rw [hn, Option.getD_some, wordsOf] at h
    exact decode_exact_length (by rw [hn, wordsOf_length]) h

/-- A frame of fewer than 65536 parameter bytes is a command that has a descriptor (R84). -/
theorem decodeFrame_wellFormed {p : Params} {frame : List Byte} {i : Instr} (hl : frame.length ≤ 65536)
    (h : decodeFrame p frame = some i) : i.wellFormed = true := by
  cases frame with
  | nil => cases h
  | cons opc bs =>
    have hbs : countFits bs.length = true := by
      simp only [List.length_cons] at hl
      simp only [countFits, decide_eq_true_eq]
      omega
    simp only [decodeFrame] at h
    split at h
    · repeat' split at h
      all_goals cases h; rfl
    · repeat' split at h
      all_goals cases h; rfl
    · cases h
      exact hbs

theorem tableFrame_length_le (w : Nat) : (tableFrame w).length ≤ 5 := by
  simp only [tableFrame]
  split <;> simp

/-- Settles O7: an 8-bit row is issued, a longer one handed over in exactly the words of its descriptor. -/
theorem stepRunsPlacedTableWord : Obligations.StepRunsPlacedTableWord := by
  intro s nbits w i h
  by_cases hn : nbits ≤ 8
  · have hin : (s.withFetchWord nbits w).inputs = .issue i :: s.inputs := by
      simp [State.withFetchWord, placeFirst, fetchInput, hn, h]
    rw [decodeTableWord, if_pos hn] at h
    have hi : i.wellFormed = true := decodeFrame_wellFormed (Nat.le_trans (tableFrame_length_le _) (by decide)) h
    rw [step_issue_ready hin rfl, submitInstr_wellFormed hi]
    rfl
  · have hin : (s.withFetchWord nbits w).inputs = .submit (tableWords nbits w) :: s.inputs := by
      simp [State.withFetchWord, placeFirst, fetchInput, hn]
    rw [decodeTableWord, if_neg hn] at h
    split at h
    · rename_i j more hd
      cases h
      rw [decode_tableWords hd] at hd
      rw [step_submit_ready hin rfl, submitWords_ok hd]
      rfl
    · cases h

/-! The engine (R35). -/

theorem engineStep_of_perform {s m : State} {u : MicroOp} {rest : List MicroOp} (hq : s.uq = u :: rest)
    (hm : perform u s = .next m) : engineStep s = .next (m.retire rest) := by
  simp [engineStep, hq, hm]

theorem engineStep_idle {s : State} (hq : s.uq = []) (hb : s.busy = false) : engineStep s = .next s := by
  simp [engineStep, hq, hb]

/-- A submission waits while BUSY = 1 (R36). -/
theorem step_waiting {s : State} (hb : s.busy = true) {rest : List Input}
    (hin : (∃ ws, s.inputs = .submit ws :: rest) ∨ (∃ i, s.inputs = .issue i :: rest)) : step s = engineStep s := by
  obtain ⟨ws, hin⟩ | ⟨i, hin⟩ := hin <;> simp [step_of_inputs_cons hin, takeInput, hb]

theorem exec_busy {s : State} (hb : s.busy = true) (i : Instr) : exec i s = .refused .portNotReady := by
  cases i <;> exact submit_busy hb

/-- Settles O8: the step is the engine's, whose frame leaves the submission, the latches and FAULT. -/
theorem submissionWaitsWhileBusy : Obligations.SubmissionWaitsWhileBusy := by
  refine ⟨fun s rest u us m hb hq hm hin => ?_, fun i s hb => exec_busy hb i⟩
  have hp := perform_next hm
  refine ⟨m.retire us, ?_, ?_, ?_, ?_, ?_, ?_⟩
  · rw [step_waiting hb hin, engineStep_of_perform hq hm]
  · simp [hp.inputs]
  · simp
  · simp [hp.lat]
  · simp [hp.fault]
  · simp

theorem settle_eq (p : Phase) : p.settle = if p = .seq then .ready else p := by
  cases p <;> rfl

theorem retire_of_ne_nil {s : State} {rest : List MicroOp} (hr : rest ≠ []) : s.retire rest = { s with uq := rest } := by
  cases rest with
  | nil => exact absurd rfl hr
  | cons u us => rfl

theorem retire_nil (s : State) : s.retire [] =
    { s with uq := [], busy := false, resp := .ok, phase := if s.phase = .seq then .ready else s.phase } := by
  rw [← settle_eq]
  rfl

theorem step_engine {s : State} {left : List Input} (hin : s.inputs = .engine :: left) :
    step s = engineStep (s.withInputs left) :=
  step_of_inputs_cons hin

/-- In each of the three ways the engine goes on, the step performs the head of UQ (R35, R36). -/
theorem step_performs {s m : State} {u : MicroOp} {rest : List MicroOp} {left : List Input} (hq : s.uq = u :: rest)
    (hm : perform u s = .next m)
    (hin : s.inputs = left ∧ left = [] ∨
      s.inputs = left ∧ s.busy = true ∧ ((∃ ws l, left = .submit ws :: l) ∨ (∃ i l, left = .issue i :: l)) ∨
      s.inputs = .engine :: left) :
    step s = .next ((m.withInputs left).retire rest) := by
  have hgoes : s.inputs = left → engineStep s = .next ((m.withInputs left).retire rest) := by
    rintro rfl
    exact engineStep_of_perform hq (perform_withInputs hm s.inputs)
  obtain ⟨hin, rfl⟩ | ⟨hin, hb, ⟨ws, l, rfl⟩ | ⟨i, l, rfl⟩⟩ | hin := hin
  · rw [step_of_inputs_nil hin, hgoes hin]
  · rw [step_waiting hb (.inl ⟨ws, hin⟩), hgoes hin]
  · rw [step_waiting hb (.inr ⟨i, hin⟩), hgoes hin]
  · rw [step_engine hin]
    exact engineStep_of_perform hq (perform_withInputs hm left)

/-- Settles O9: `step_performs`, and what taking the head off UQ leaves. -/
theorem engineStepFollowsQueue : Obligations.EngineStepFollowsQueue := by
  refine ⟨fun s m u rest left hq hm hin => ⟨fun hr => ?_, ?_⟩, fun s hq hb => ⟨fun hin => ?_, fun left hin => ?_⟩⟩
  · rw [step_performs hq hm hin, retire_of_ne_nil hr]
    rfl
  · rintro rfl
    rw [step_performs hq hm hin, retire_nil]
    rfl
  · rw [step_of_inputs_nil hin, engineStep_idle hq hb]
  · rw [step_engine hin]
    exact engineStep_idle hq hb

/-- Settles O10, one micro-operation a clause; a byte from TXBUF or host memory is shifted out like an immediate one. -/
theorem microOperationEffects : Obligations.MicroOperationEffects := by
  intro s
  refine ⟨fun _ => rfl, fun _ => rfl, fun _ => rfl, fun v => ⟨_, rfl⟩, fun i v filled stored => ?_, fun i hi => ?_,
    fun bs fits => ?_, fun _ => rfl, fun _ => rfl, rfl⟩
  · exact perform_eq_next_iff.2 (.tx i v filled stored)
  · exact perform_eq_next_iff.2 (.src i hi)
  · exact perform_eq_next_iff.2 (.fill bs fits)

/-! Reset (R44, R200). -/

/-- Power-on is a hardware reset of a state that already is one. -/
theorem powerOn_eq_hardReset (c : Config) (u : ResetLevels) :
    State.powerOn c u = (State.powerOn c u).hardReset u := rfl

theorem powerOn_inv (c : Config) (u : ResetLevels) : (State.powerOn c u).Inv :=
  powerOn_eq_hardReset c u ▸ hardReset_inv rfl u

theorem powerOn_sequencerInv (c : Config) (u : ResetLevels) : (State.powerOn c u).SequencerInv := ⟨rfl, rfl⟩

/-- Settles O36: power-on is a hardware reset, which establishes the invariant, and nothing has been driven yet. -/
theorem powerOnKeepsInvariants : Obligations.PowerOnKeepsInvariants :=
  ⟨fun c u => ⟨powerOn_inv c u, powerOn_sequencerInv c u⟩, powerOn_inv _ _, powerOn_sequencerInv _ _⟩

/-- With PWM_CMP = 0 and no open period the backlight is off (R160). -/
theorem bl_of_cmp_zero {s : State} (hon : s.pwm.on = true) (hfresh : s.pwm.fresh = false) (hcmp : s.pwm.cmp = 0) :
    s.bl = false := by
  simp [State.bl, hon, hfresh, hcmp]

/-- Settles O53: the step is `State.hardReset`, field by field. -/
theorem hardwareReset : Obligations.HardwareReset := by
  intro s u rest hin
  have hbl (hon : s.pwm.on = true) : ((s.hardReset u).withInputs rest).bl = false := bl_of_cmp_zero hon rfl rfl
  exact ⟨_, step_reset hin, by simpa using hbl⟩

/-! The PWM counter (R39, R206). -/

theorem pwmTick_off {s : State} (hon : s.pwm.on = false) : s.pwmTick = s := by
  simp [State.pwmTick, hon]

theorem pwmTick_count {s : State} (hon : s.pwm.on = true) (htop : s.pwm.ctr ≠ s.cfg.params.pwmTop) :
    s.pwmTick = { s with pwm := { s.pwm with ctr := s.pwm.ctr + 1 }, freeCount := s.freeCount + 1 } := by
  simp [State.pwmTick, nextCount, hon, htop]

theorem pwmTick_wrap {s : State} (hon : s.pwm.on = true) (htop : s.pwm.ctr = s.cfg.params.pwmTop) :
    s.pwmTick = { s with pwm := { s.pwm with ctr := 0, fresh := false }, freeCount := s.freeCount + 1 } := by
  simp [State.pwmTick, nextCount, hon, htop]

/-- Settles O58: the set-up, and the three things a count can do. -/
theorem pwmActsStepTheCounter : Obligations.PwmActsStepTheCounter := by
  intro s rest
  have htick (hin : s.inputs = .pwmTick :: rest) : step s = .next (s.pwmTick.withInputs rest) := step_of_inputs_cons hin
  refine ⟨fun hin => step_of_inputs_cons hin, fun hin hon => ?_, fun hin hon htop => ?_, fun hin hon htop => ?_⟩
  · rw [htick hin, pwmTick_off hon]
    rfl
  · rw [htick hin, pwmTick_count hon htop]
    rfl
  · rw [htick hin, pwmTick_wrap hon htop]
    rfl

/-! The status registers (R42). -/

theorem statusWord_s0_toNat (s : State) :
    (statusWord .s0 s).toNat = s.busy.toNat + 2 * s.done.toNat + 4 * s.phase.bits.toNat := by
  simp only [statusWord, statusS0]
  cases s.phase <;> cases s.done <;> cases s.busy <;> rfl

theorem statusWord_s1_toNat (s : State) : (statusWord .s1 s).toNat = s.fault.toNat :=
  (BitVec.toNat_append 0#24 s.fault).trans (by simp)

theorem statusWord_s3_toNat (s : State) :
    (statusWord .s3 s).toNat = s.resp.kindBits.toNat + 256 * s.resp.codeBits.toNat := by
  simp only [statusWord, statusS3]
  cases s.resp with
  | err c => cases c <;> rfl
  | _ => rfl

theorem codeBits_toNat (c : Cause) : (Resp.err c).codeBits.toNat = c.code := by
  cases c <;> rfl

/-- Settles O52: the four words in numbers, and the two acts. -/
theorem statusRegisters : Obligations.StatusRegisters := by
  intro s r v rest
  refine ⟨fun hp => ?_, fun hp => ?_, fun hp => ?_, statusWord_s1_toNat s, statusWord_s2_toNat s, fun hr => ?_, fun hr => ?_,
    fun hr => ?_, fun c hr => ?_, fun hin => step_of_inputs_cons hin, fun hin => step_of_inputs_cons hin⟩
  · rw [statusWord_s0_toNat, hp]; rfl
  · rw [statusWord_s0_toNat, hp]; rfl
  · rw [statusWord_s0_toNat, hp]; rfl
  · rw [statusWord_s3_toNat, hr]; rfl
  · rw [statusWord_s3_toNat, hr]; rfl
  · rw [statusWord_s3_toNat, hr]; rfl
  · rw [statusWord_s3_toNat, hr, codeBits_toNat]; rfl

end Sys2Proof.Machine
end

section
/-! Proofs, layer 7: host memory, written by the host alone, and the bytes of it an operation reads (R7, R53, R55, R58). -/

namespace Sys2Proof.Machine

/-! What is not written (R7, R53). -/

theorem engineStep_cfg_mem {s t : State} (h : engineStep s = .next t) : t.cfg = s.cfg ∧ t.mem = s.mem := by
  obtain ⟨-, -, rfl⟩ | ⟨u, rest, m, -, hm, rfl⟩ := engineStep_next h
  · exact ⟨rfl, rfl⟩
  · have hp := perform_next hm
    exact ⟨by simp [hp.cfg], by simp [hp.mem]⟩

/-- No step writes a parameter, and one that is not the host's store writes no byte of host memory. -/
theorem step_cfg_mem {s t : State} (h : step s = .next t) :
    t.cfg = s.cfg ∧
    ((∃ a v rest, s.inputs = .store a v :: rest) ∨ ∀ b, Memory.read t.mem b = Memory.read s.mem b) := by
  cases step_next h with
  | engine h hin =>
    obtain ⟨hcfg, hmem⟩ := engineStep_cfg_mem h
    exact ⟨hcfg, .inr fun b => by rw [hmem]⟩
  | letEngine rest hin h =>
    obtain ⟨hcfg, hmem⟩ := engineStep_cfg_mem h
    exact ⟨hcfg, .inr fun b => by rw [hmem, withInputs_mem]⟩
  | submitted i l hb h hin =>
    have hf := exec_frame h
    exact ⟨hf.cfg, .inr hf.mem⟩
  | store a v rest hin h => exact ⟨by simp [h], .inl ⟨a, v, rest, hin⟩⟩
  | _ => simp [*]

/-- Settles O46: `step_cfg_mem`, and for the host's store a read after a write. -/
theorem hostMemoryAndParametersAreNotWritten : Obligations.HostMemoryAndParametersAreNotWritten := by
  intro s hwf
  refine ⟨fun t h => ?_, fun a v rest hin => ?_⟩
  · obtain ⟨hcfg, hmem⟩ := step_cfg_mem h
    exact ⟨hcfg, fun hne => hmem.resolve_left fun ⟨a, v, rest, hin⟩ => hne a v rest hin⟩
  · exact ⟨Memory.write s.mem a.toNat v, step_of_inputs_cons hin, read_write_same hwf a.toNat v,
      fun b hb => read_write_other hwf hb v⟩

/-! What is read (R55, R58): the host buffer indices of a list of micro-operations, in order. -/

theorem srcIndices_busCall (d : Bool) (us : List MicroOp) :
    (busCall d us).filterMap MicroOp.srcIndex = us.filterMap MicroOp.srcIndex := by
  rw [busCall, List.filterMap_append, List.filterMap_append]
  exact List.append_nil _

/-- A call whose bytes do not come from the host buffer. -/
theorem srcIndices_busCall_map {α : Type} {f : α → MicroOp} (hf : ∀ a, (f a).srcIndex = none) (d : Bool) (l : List α) :
    (busCall d (l.map f)).filterMap MicroOp.srcIndex = [] := by
  rw [srcIndices_busCall]
  simp [hf]

theorem srcIndices_callSrc (d : Bool) (m : Nat) : (callSrc d m).filterMap MicroOp.srcIndex = List.range m := by
  have hsrc : MicroOp.srcIndex ∘ MicroOp.src = some := rfl
  rw [callSrc_eq, srcIndices_busCall, List.filterMap_map, hsrc, List.filterMap_some, indices]

theorem srcIndices_wregOps (opc : Byte) (bs : List Byte) : (wregOps opc bs).filterMap MicroOp.srcIndex = [] := by
  have himm : (callImm false [opc]).filterMap MicroOp.srcIndex = [] :=
    srcIndices_busCall_map (f := .imm) (fun _ => rfl) false [opc]
  have htx : (callTx bs.length).filterMap MicroOp.srcIndex = [] :=
    srcIndices_busCall_map (f := .tx) (fun _ => rfl) true (indices bs.length)
  rw [wregOps, List.filterMap_append, himm, List.nil_append]
  split
  · rfl
  · rw [List.filterMap_append, htx]
    rfl

theorem srcIndices_scriptOps (script : List (Byte × List Byte)) :
    (scriptOps script).filterMap MicroOp.srcIndex = [] := by
  simp [scriptOps, List.filterMap_flatMap, srcIndices_wregOps]

theorem srcIndices_expandFlush (p : Params) (x1 y1 x2 y2 : Half) (len : Word) :
    (expandFlush p x1 y1 x2 y2 len).filterMap MicroOp.srcIndex = List.range len.toNat := by
  simp only [expandFlush, List.filterMap_append, srcIndices_wregOps, srcIndices_callSrc]
  exact List.append_nil _

theorem srcIndices_expandInit (p : Params) : (expandInit p).filterMap MicroOp.srcIndex = [] := by
  simp only [expandInit, List.filterMap_append, srcIndices_wregOps, srcIndices_scriptOps]
  rfl

/-- Settles O51: of the parts of the five expansions only `callSrc` reads the host buffer, once in XFER and once in FLUSH. -/
theorem bufferReadOnceInOrder : Obligations.BufferReadOnceInOrder :=
  ⟨fun d len => srcIndices_callSrc d len.toNat, srcIndices_expandFlush, fun opc ps => srcIndices_wregOps opc (ps.map trunc8),
    srcIndices_expandInit, fun _ => rfl⟩

end Sys2Proof.Machine
end

section
/-! Proofs, layer 8: the descriptor and the wire frame, both ways (spec/30_encoding.md R70 to R88). -/

namespace Sys2Proof.Machine

/-! The header's five fields (R81). -/

/-- Two words are equal when OP, the reserved bits, D, OPC and IMM16 are. -/
theorem word_eq_iff_fields {v w : Word} :
    v = w ↔ v.extractLsb' 28 4 = w.extractLsb' 28 4 ∧ v.extractLsb' 25 3 = w.extractLsb' 25 3 ∧
      v.extractLsb' 24 1 = w.extractLsb' 24 1 ∧ v.extractLsb' 16 8 = w.extractLsb' 16 8 ∧
      v.extractLsb' 0 16 = w.extractLsb' 0 16 := by
  refine ⟨fun h => h ▸ ⟨rfl, rfl, rfl, rfl, rfl⟩, fun h => BitVec.eq_of_toNat_eq ?_⟩
  simp only [← BitVec.toNat_inj, BitVec.extractLsb'_toNat, Nat.shiftRight_eq_div_pow] at h
  omega

/-- What R83's row of a format asks of the fields of W0. -/
def headerFits (w0 : Word) : Format → Prop
  | .x => w0.toNat / 268435456 = 1 ∧ w0.toNat / 33554432 % 8 = 0 ∧ w0.toNat / 65536 % 256 = 0 ∧ w0.toNat % 65536 = 0
  | .w => w0.toNat / 268435456 = 2 ∧ w0.toNat / 33554432 % 8 = 0 ∧ w0.toNat / 16777216 % 2 = 0
  | .z => w0.toNat / 268435456 = 3 ∧ w0.toNat / 33554432 % 8 = 0 ∧ w0.toNat / 16777216 % 2 = 0 ∧
      w0.toNat / 65536 % 256 = 0 ∧ w0.toNat % 65536 = 0
  | .f => w0.toNat / 268435456 = 4 ∧ w0.toNat / 33554432 % 8 = 0 ∧ w0.toNat / 16777216 % 2 = 0 ∧
      w0.toNat / 65536 % 256 = 0 ∧ w0.toNat % 65536 = 0
  | .l => w0.toNat / 268435456 = 5 ∧ w0.toNat / 33554432 % 8 = 0 ∧ w0.toNat / 16777216 % 2 = 0 ∧
      w0.toNat / 65536 % 256 = 0

/-- The value of OP that names a format (R83). -/
def formatOp : Format → Nat
  | .x => 1
  | .w => 2
  | .z => 3
  | .f => 4
  | .l => 5

theorem headerFits_op {w0 : Word} {fmt : Format} (h : headerFits w0 fmt) : w0.toNat / 268435456 = formatOp fmt := by
  cases fmt <;> exact h.1

/-- OP tells the formats apart. -/
theorem headerFits_unique {w0 : Word} {fmt fmt' : Format} (h : headerFits w0 fmt) (h' : headerFits w0 fmt') :
    fmt = fmt' := by
  have hop : formatOp fmt = formatOp fmt' := (headerFits_op h).symm.trans (headerFits_op h')
  cases fmt <;> cases fmt' <;> cases hop <;> rfl

/-- Each row of the match and mask list, field by field: a mask keeps a whole field or drops it. -/
theorem covers_iff_headerFits {r : HeaderRow} (hr : r ∈ headerTable) (w0 : Word) :
    r.covers w0 = true ↔ headerFits w0 r.format := by
  have and4 (x : BitVec 4) : x &&& 15#4 = x := BitVec.and_allOnes
  have and3 (x : BitVec 3) : x &&& 7#3 = x := BitVec.and_allOnes
  have and1 (x : BitVec 1) : x &&& 1#1 = x := BitVec.and_allOnes
  have and8 (x : BitVec 8) : x &&& 255#8 = x := BitVec.and_allOnes
  have and16 (x : BitVec 16) : x &&& 65535#16 = x := BitVec.and_allOnes
  simp only [headerTable, List.mem_cons, List.not_mem_nil, or_false] at hr
  rw [HeaderRow.covers, beq_iff_eq, word_eq_iff_fields]
  simp only [BitVec.extractLsb'_and]
  obtain rfl | rfl | rfl | rfl | rfl := hr <;>
    simp [headerFits, and4, and3, and1, and8, and16, ← BitVec.toNat_inj, Nat.shiftRight_eq_div_pow] <;> omega

theorem headerFormat_eq_some_iff {w0 : Word} {fmt : Format} : headerFormat w0 = some fmt ↔ headerFits w0 fmt := by
  have sound {fmt : Format} (h : headerFormat w0 = some fmt) : headerFits w0 fmt := by
    obtain ⟨r, hr, rfl⟩ := Option.map_eq_some_iff.1 h
    exact (covers_iff_headerFits (List.mem_of_find?_eq_some hr) w0).1
      (List.find?_some (p := fun r : HeaderRow => r.covers w0) hr)
  refine ⟨sound, fun h => ?_⟩
  obtain ⟨r, hr, rfl⟩ : ∃ r ∈ headerTable, r.format = fmt := by cases fmt <;> decide
  have hfound : (headerTable.find? fun r : HeaderRow => r.covers w0).isSome = true :=
    List.find?_isSome.2 ⟨r, hr, (covers_iff_headerFits hr w0).2 h⟩
  obtain ⟨r', hr'⟩ := Option.isSome_iff_exists.1 hfound
  have hformat : headerFormat w0 = some r'.format := by rw [headerFormat, hr']; rfl
  rw [hformat, headerFits_unique (sound hformat) h]

/-- R83 and R85 agree: no row matches exactly when a field is reserved or must be zero and is not. -/
theorem headerFormat_eq_none_iff {w0 : Word} : headerFormat w0 = none ↔ illegalHeader w0 := by
  have hall : headerFormat w0 = none ↔ ∀ fmt, ¬ headerFits w0 fmt := by
    simp only [Option.eq_none_iff_forall_ne_some, ne_eq, headerFormat_eq_some_iff]
  rw [hall]
  constructor
  · intro h
    have hx := h .x
    have hw := h .w
    have hz := h .z
    have hf := h .f
    have hl := h .l
    simp only [headerFits] at hx hw hz hf hl
    unfold illegalHeader
    omega
  · intro h fmt hfmt
    unfold illegalHeader at h
    cases fmt <;> simp only [headerFits] at hfmt <;> omega

/-! Header words the encoder writes (R81, R83). -/

theorem encodeHeader_toNat (op : BitVec 4) (d : Bool) (opc : Byte) (imm : Half) :
    (encodeHeader op d opc imm).toNat =
      268435456 * op.toNat + 16777216 * d.toNat + 65536 * opc.toNat + imm.toNat := by
  have hd : (BitVec.ofBool d).toNat = d.toNat := by cases d <;> rfl
  have hd' := Bool.toNat_lt d
  simp only [encodeHeader, BitVec.toNat_append, hd]
  rw [← Nat.shiftLeft_add_eq_or_of_lt imm.isLt, ← Nat.shiftLeft_add_eq_or_of_lt opc.isLt,
    ← Nat.shiftLeft_add_eq_or_of_lt (by omega), ← Nat.shiftLeft_add_eq_or_of_lt (by simp)]
  simp [Nat.shiftLeft_eq]
  omega

@[simp] theorem headerOpc_encodeHeader (op : BitVec 4) (d : Bool) (opc : Byte) (imm : Half) :
    headerOpc (encodeHeader op d opc imm) = opc := by
  apply BitVec.eq_of_toNat_eq
  rw [headerOpc, BitVec.extractLsb'_toNat, encodeHeader_toNat, Nat.shiftRight_eq_div_pow]
  omega

@[simp] theorem headerImm_encodeHeader (op : BitVec 4) (d : Bool) (opc : Byte) (imm : Half) :
    headerImm (encodeHeader op d opc imm) = imm := BitVec.extractLsb'_append_eq_right

@[simp] theorem headerD_encodeHeader (op : BitVec 4) (d : Bool) (opc : Byte) (imm : Half) :
    headerD (encodeHeader op d opc imm) = d := by
  rw [headerD, encodeHeader, BitVec.getLsbD_append, BitVec.getLsbD_append, BitVec.getLsbD_append]
  cases d <;> rfl

theorem encodeHeader_fields (op : BitVec 4) (d : Bool) (opc : Byte) (imm : Half) :
    (encodeHeader op d opc imm).toNat / 268435456 = op.toNat ∧ (encodeHeader op d opc imm).toNat / 33554432 % 8 = 0 ∧
      (encodeHeader op d opc imm).toNat / 16777216 % 2 = d.toNat ∧
      (encodeHeader op d opc imm).toNat / 65536 % 256 = opc.toNat ∧
      (encodeHeader op d opc imm).toNat % 65536 = imm.toNat := by
  have hd := Bool.toNat_lt d
  rw [encodeHeader_toNat]
  omega

@[simp] theorem headerFormat_encodeXfer (d : Bool) : headerFormat (encodeHeader 1#4 d 0#8 0#16) = some .x :=
  headerFormat_eq_some_iff.2 (by simp [headerFits, encodeHeader_fields])

@[simp] theorem headerFormat_encodeWreg (opc : Byte) (n : Half) : headerFormat (encodeHeader 2#4 false opc n) = some .w :=
  headerFormat_eq_some_iff.2 (by simp [headerFits, encodeHeader_fields])

@[simp] theorem headerFormat_encodeInit : headerFormat (encodeHeader 3#4 false 0#8 0#16) = some .z :=
  headerFormat_eq_some_iff.2 (by simp [headerFits, encodeHeader_fields])

@[simp] theorem headerFormat_encodeFlush : headerFormat (encodeHeader 4#4 false 0#8 0#16) = some .f :=
  headerFormat_eq_some_iff.2 (by simp [headerFits, encodeHeader_fields])

@[simp] theorem headerFormat_encodeSetbl (level : Half) : headerFormat (encodeHeader 5#4 false 0#8 level) = some .l :=
  headerFormat_eq_some_iff.2 (by simp [headerFits, encodeHeader_fields])

/-! The decoder after the encoder (R84, R86, R88). -/

theorem decode_encodeXfer (d : Bool) (buf len : Word) (rest : List Word) :
    decode (encodeXfer d buf len ++ rest) = .ok (.xfer d buf len, rest) := by
  simp [encodeXfer, decode]

theorem decode_encodeWreg (opc : Byte) {ps : List Word} (hn : ps.length < 65536) (rest : List Word) :
    decode (encodeWreg opc ps ++ rest) = .ok (.wreg opc ps, rest) := by
  have hcount : (BitVec.ofNat 16 ps.length).toNat = ps.length := Nat.mod_eq_of_lt hn
  simp [encodeWreg, decode, hcount]

theorem decode_encodeInit (rest : List Word) : decode ([encodeHeader 3 false 0 0] ++ rest) = .ok (.init, rest) := by
  simp [decode]

@[simp] theorem extractLsb'_append_high (a b : Half) : (a ++ b : Word).extractLsb' 16 16 = a :=
  BitVec.extractLsb'_append_eq_left

@[simp] theorem extractLsb'_append_low (a b : Half) : (a ++ b : Word).extractLsb' 0 16 = b :=
  BitVec.extractLsb'_append_eq_right

theorem decode_encodeFlush (x1 y1 x2 y2 : Half) (buf len : Word) (rest : List Word) :
    decode (encodeFlush x1 y1 x2 y2 buf len ++ rest) = .ok (.flush x1 y1 x2 y2 buf len, rest) := by
  simp [encodeFlush, decode]

theorem decode_encodeSetbl (level : Half) (rest : List Word) :
    decode ([encodeHeader 5 false 0 level] ++ rest) = .ok (.setbl level, rest) := by
  simp [decode]

/-- The descriptor of every well-formed operation reads back as the host operation it stands for (R88). -/
theorem decode_encode (p : Params) {i : Instr} (hi : i.wellFormed = true) (rest : List Word) :
    decode (encode p i ++ rest) = .ok (i.core p, rest) := by
  cases i with
  | xfer d buf len => exact decode_encodeXfer d buf len rest
  | wreg opc ps => exact decode_encodeWreg opc (of_decide_eq_true hi) rest
  | init => exact decode_encodeInit rest
  | flush x1 y1 x2 y2 buf len => exact decode_encodeFlush x1 y1 x2 y2 buf len rest
  | setbl level => exact decode_encodeSetbl level rest
  | slpout => exact decode_encodeWreg p.cmdSlpout (ps := []) (by decide) rest
  | dispon => exact decode_encodeWreg p.cmdDispon (ps := []) (by decide) rest
  | caset a b => exact decode_encodeWreg p.cmdCaset (ps := (windowBytes a b).map zext32) (by decide : 4 < 65536) rest
  | raset a b => exact decode_encodeWreg p.cmdRaset (ps := (windowBytes a b).map zext32) (by decide : 4 < 65536) rest
  | ramwr => exact decode_encodeWreg p.cmdRamwr (ps := []) (by decide) rest
  | pixels buf len => exact decode_encodeXfer true buf len rest
  | initScriptEntry opc bs =>
    exact decode_encodeWreg opc (by simpa [Instr.wellFormed, countFits] using hi) rest

/-- Settles O1: `decode_encode` for the words, and an operation's expansion has its meaning. -/
theorem decodeEncodeDescriptor : Obligations.DecodeEncodeDescriptor := by
  intro p i rest hi
  refine ⟨decode_encode p hi rest, ?_, ?_, ?_, ?_, ?_, ?_⟩
  · rintro d buf len rfl; rfl
  · rintro opc ps rfl; rfl
  · rintro rfl; rfl
  · rintro x1 y1 x2 y2 buf len rfl; rfl
  · rintro level rfl; rfl
  · rintro s rfl
    exact (exec_core i s).symm

/-! The decoder, by the length the header calls for (R84, R85). -/

theorem decode_eq_illegalOp_iff {w0 : Word} {ws : List Word} :
    decode (w0 :: ws) = .error .illegalOp ↔ illegalHeader w0 := by
  rw [← headerFormat_eq_none_iff]
  unfold decode
  cases hfmt : headerFormat w0 with
  | none => simp only [hfmt]
  | some fmt =>
    cases fmt with
    | x => simp only [hfmt, reduceCtorEq, iff_false]; split <;> simp
    | w => simp only [hfmt, reduceCtorEq, iff_false]; split <;> simp
    | z => simp only [hfmt, reduceCtorEq]
    | f => simp only [hfmt, reduceCtorEq, iff_false]; split <;> simp
    | l => simp only [hfmt, reduceCtorEq]

/-- An illegal W0 is dropped alone, and its submission rejected (R85, R171). -/
theorem step_illegalHeader {w0 : Word} {ws : List Word} {rest : List Input} {s : State} (h : illegalHeader w0)
    (hb : s.busy = false) (hin : s.inputs = .submit (w0 :: ws) :: rest) :
    step s = .next ((s.withInputs (restInputs ws rest)).raise .illegalOp) := by
  rw [step_submit_ready hin hb]
  simp [submitWords, decode_eq_illegalOp_iff.2 h]

/-- Settles O3: no row of the match and mask list covers exactly the illegal headers. -/
theorem illegalHeaderIsRejected : Obligations.IllegalHeaderIsRejected :=
  fun _ _ _ _ => ⟨decode_eq_illegalOp_iff.symm, step_illegalHeader⟩

/-- The length of a legal descriptor in the fields of W0 (R84). -/
theorem descriptorLength_of_legal {w0 : Word} (h : ¬ illegalHeader w0) :
    descriptorLength w0 = some (if w0.toNat / 268435456 = 1 then 3
      else if w0.toNat / 268435456 = 2 then 1 + w0.toNat % 65536
      else if w0.toNat / 268435456 = 4 then 5 else 1) := by
  have himm : (headerImm w0).toNat = w0.toNat % 65536 := by simp [headerImm]
  rw [← headerFormat_eq_none_iff] at h
  obtain ⟨fmt, hfmt⟩ := Option.ne_none_iff_exists'.1 h
  have hop := headerFits_op (headerFormat_eq_some_iff.1 hfmt)
  unfold descriptorLength
  cases fmt <;> simp [hfmt, hop, formatOp, himm]

/-- With all the words the header calls for, the decoder takes those and no more (R84; log 6). -/
theorem decode_of_length_le {w0 : Word} {ws : List Word} {n : Nat} (hn : descriptorLength w0 = some n)
    (hle : n ≤ ws.length + 1) : ∃ i, decode (w0 :: ws) = .ok (i, ws.drop (n - 1)) ∧ i.wellFormed = true := by
  unfold descriptorLength at hn
  unfold decode
  cases hfmt : headerFormat w0 with
  | none => simp [hfmt] at hn
  | some fmt =>
    simp only [hfmt] at hn ⊢
    cases fmt with
    | x =>
      cases hn
      match ws, hle with
      | buf :: len :: rest, _ => exact ⟨_, rfl, rfl⟩
    | w =>
      cases hn
      have hcount : (headerImm w0).toNat ≤ ws.length := by omega
      have htaken : (ws.take (headerImm w0).toNat).length < 65536 := by
        have := (headerImm w0).isLt
        simp only [List.length_take]
        omega
      rw [if_pos hcount, Nat.add_sub_cancel_left]
      exact ⟨_, rfl, decide_eq_true htaken⟩
    | z =>
      cases hn
      exact ⟨_, rfl, rfl⟩
    | f =>
      cases hn
      match ws, hle with
      | w1 :: w2 :: buf :: len :: rest, _ => exact ⟨_, rfl, rfl⟩
    | l =>
      cases hn
      exact ⟨_, rfl, rfl⟩

/-- With fewer words the descriptor is not whole (R84; log 6). -/
theorem decode_of_length_lt {w0 : Word} {ws : List Word} {n : Nat} (hn : descriptorLength w0 = some n)
    (hlt : ws.length + 1 < n) : decode (w0 :: ws) = .error .incomplete := by
  unfold descriptorLength at hn
  unfold decode
  cases hfmt : headerFormat w0 with
  | none => simp [hfmt] at hn
  | some fmt =>
    simp only [hfmt] at hn ⊢
    cases fmt with
    | x =>
      cases hn
      match ws, hlt with
      | [], _ => rfl
      | [_], _ => rfl
    | w =>
      cases hn
      rw [if_neg (by omega)]
    | z =>
      cases hn
      simp at hlt
    | f =>
      cases hn
      match ws, hlt with
      | [], _ => rfl
      | [_], _ => rfl
      | [_, _], _ => rfl
      | [_, _, _], _ => rfl
    | l =>
      cases hn
      simp at hlt

/-- Settles O5: the length by W0, and the decoder by whether that many words are there. -/
theorem descriptorLengthFollowsHeader : Obligations.DescriptorLengthFollowsHeader := by
  intro w0 ws h
  have hn := descriptorLength_of_legal h
  exact ⟨_, rfl, hn, decode_of_length_le hn, decode_of_length_lt hn⟩

/-- Settles O4: each descriptor is read by computation. -/
theorem headerWordsDecode : Obligations.HeaderWordsDecode :=
  ⟨rfl, rfl, rfl, rfl, rfl, rfl, rfl, rfl, rfl, rfl, rfl, rfl, rfl, rfl⟩

/-! The wire frame (R71, R75, R77). -/

theorem hi8_append_lo8 (v : Half) : (hi8 v ++ lo8 v : Half) = v := by
  apply BitVec.eq_of_toNat_eq
  rw [BitVec.toNat_append, ← Nat.shiftLeft_add_eq_or_of_lt (lo8 v).isLt]
  simp only [hi8, lo8, BitVec.extractLsb'_toNat, Nat.shiftRight_eq_div_pow, Nat.shiftLeft_eq]
  omega

/-- A frame whose opcode is none of the five is a configuration command, whatever its length (R124; log 9). -/
theorem decodeFrame_of_other_opcode {p : Params} {opc : Byte} (bs : List Byte)
    (h : opc ∉ [p.cmdSlpout, p.cmdDispon, p.cmdCaset, p.cmdRaset, p.cmdRamwr]) :
    decodeFrame p (opc :: bs) = some (.initScriptEntry opc bs) := by
  simp only [List.mem_cons, List.not_mem_nil, or_false, not_or] at h
  obtain ⟨hslpout, hdispon, hcaset, hraset, hramwr⟩ := h
  simp only [decodeFrame]
  split <;> simp [hslpout, hdispon, hcaset, hraset, hramwr]

theorem decodeFrame_caset (p : Params) (a b : Half) :
    decodeFrame p (p.cmdCaset :: windowBytes a b) = some (.caset a b) := by
  simp [decodeFrame, windowBytes, be16, hi8_append_lo8]

theorem decodeFrame_raset {p : Params} (h : p.cmdRaset ≠ p.cmdCaset) (a b : Half) :
    decodeFrame p (p.cmdRaset :: windowBytes a b) = some (.raset a b) := by
  simp [decodeFrame, windowBytes, be16, hi8_append_lo8, h]

/-- Settles O2, one panel command at a time; that the opcodes differ keeps the commands of one length apart. -/
theorem panelFrameDecodesBack : Obligations.PanelFrameDecodesBack := by
  intro p i hdiffer hi
  simp only [opcodesDiffer, List.nodup_cons, List.mem_cons, List.not_mem_nil, or_false, not_or] at hdiffer
  obtain ⟨⟨hsd, -, -, hsw⟩, ⟨-, -, hdw⟩, ⟨hcr, -⟩, -⟩ := hdiffer
  cases i with
  | slpout => exact ⟨_, rfl, by simp [decodeFrame]⟩
  | dispon => exact ⟨_, rfl, by simp [decodeFrame, Ne.symm hsd]⟩
  | ramwr => exact ⟨_, rfl, by simp [decodeFrame, Ne.symm hsw, Ne.symm hdw]⟩
  | caset a b => exact ⟨_, rfl, decodeFrame_caset p a b⟩
  | raset a b => exact ⟨_, rfl, decodeFrame_raset (Ne.symm hcr) a b⟩
  | initScriptEntry opc bs => exact ⟨_, rfl, decodeFrame_of_other_opcode bs hi⟩
  | _ => exact hi.elim

end Sys2Proof.Machine
end

section
/-! Proofs, layer 9: an operation run from its submission to its last micro-operation (R33, R35, R36, R100, R111). -/

namespace Sys2Proof.Machine

/-! A list of micro-operations, performed one after the other (R33). -/

/-- The state a micro-operation leaves when it can be performed; `CanPerform.perform_eq` ties it to `perform`. -/
def State.afterOp (s : State) : MicroOp → State
  | .cs b => (s.setCs b).emit (.cs b)
  | .dc b => (s.setDc b).emit (.dc b)
  | .rst b => (s.setRst b).emit (.rst b)
  | .imm v => s.shiftOut v
  | .tx i => s.shiftOut (s.txbuf.getD i 0)
  | .src i => s.shiftOut (Memory.read s.mem (s.lat.buf.toNat + i))
  | .fill bs => s.fillTx bs
  | .delay ms => (s.loadTimer ms).emit (.delay ms)
  | .pwm v => (s.writePwm v).emit (.pwm v)
  | .done => s.setDone.emit .done

def State.afterOps (s : State) (us : List MicroOp) : State := us.foldl State.afterOp s

@[simp] theorem afterOps_nil (s : State) : s.afterOps [] = s := rfl

@[simp] theorem afterOps_cons (s : State) (u : MicroOp) (us : List MicroOp) :
    s.afterOps (u :: us) = (s.afterOp u).afterOps us := rfl

theorem afterOps_append (s : State) (us vs : List MicroOp) : s.afterOps (us ++ vs) = (s.afterOps us).afterOps vs :=
  List.foldl_append

/-- From `s` the whole list can be performed (R33): `n` bytes at least are filled and stored. -/
def CanPerform (s : State) (us : List MicroOp) : Prop :=
  ∃ n, n ≤ s.txlen ∧ n ≤ s.txbuf.length ∧ queueSafe s.cfg.params.txbufCap s.lat.buf.toNat n us = true

/-- A list that can be performed at every fill count can be performed from every state. -/
theorem Runnable.canPerform {s : State} {us : List MicroOp}
    (h : Runnable s.cfg.params.txbufCap s.lat.buf.toNat us) : CanPerform s us :=
  ⟨0, Nat.zero_le _, Nat.zero_le _, h.safe 0⟩

theorem CanPerform.perform_eq {s : State} {u : MicroOp} {us : List MicroOp} (h : CanPerform s (u :: us)) :
    perform u s = .next (s.afterOp u) := by
  obtain ⟨n, hlen, hbuf, hsafe⟩ := h
  refine perform_eq_next_iff.2 ?_
  cases u with
  | tx i =>
    simp only [queueSafe, Bool.and_eq_true, decide_eq_true_eq] at hsafe
    have hi : i < s.txbuf.length := by omega
    exact .tx i _ (by omega) (by simp [List.getD, hi])
  | src i =>
    simp only [queueSafe, Bool.and_eq_true, decide_eq_true_eq] at hsafe
    exact .src i hsafe.1
  | fill bs =>
    simp only [queueSafe, Bool.and_eq_true, decide_eq_true_eq] at hsafe
    exact .fill bs hsafe.1
  | _ => constructor

/-- Performing the head leaves a state from which the rest can be performed. -/
theorem CanPerform.tail {s : State} {u : MicroOp} {us : List MicroOp} (h : CanPerform s (u :: us)) :
    CanPerform (s.afterOp u) us := by
  obtain ⟨n, hlen, hbuf, hsafe⟩ := h
  cases u with
  | tx i =>
    simp only [queueSafe, Bool.and_eq_true] at hsafe
    exact ⟨n, hlen, hbuf, hsafe.2⟩
  | src i =>
    simp only [queueSafe, Bool.and_eq_true] at hsafe
    exact ⟨n, hlen, hbuf, hsafe.2⟩
  | fill bs =>
    simp only [queueSafe, Bool.and_eq_true] at hsafe
    exact ⟨bs.length, Nat.le_refl _, by simp [State.afterOp], hsafe.2⟩
  | _ => exact ⟨n, hlen, hbuf, hsafe⟩

/-! The engine through a whole queue (R35). -/

/-- The outside world has no act left, or the next one is a submission, which waits while BUSY = 1 (R36). -/
def Waits (l : List Input) : Prop := l = [] ∨ (∃ ws r, l = .submit ws :: r) ∨ (∃ i r, l = .issue i :: r)

/-- The queue does not matter to a list performed from outside it. -/
theorem afterOps_uq (s : State) (q us : List MicroOp) :
    State.afterOps { s with uq := q } us = { s.afterOps us with uq := q } := by
  induction us generalizing s with
  | nil => rfl
  | cons u us ih =>
    have hu : State.afterOp { s with uq := q } u = { s.afterOp u with uq := q } := by cases u <;> rfl
    rw [afterOps_cons, hu, ih, afterOps_cons]

theorem afterOps_retire {s : State} {us : List MicroOp} (hne : us ≠ []) :
    ((s.retire us).afterOps us).retire [] = (s.afterOps us).retire [] := by
  rw [retire_of_ne_nil hne, afterOps_uq]
  rfl

theorem afterOp_busy (s : State) (u : MicroOp) : (s.afterOp u).busy = s.busy := by cases u <;> rfl

theorem afterOp_inputs (s : State) (u : MicroOp) : (s.afterOp u).inputs = s.inputs := by cases u <;> rfl

/-- The engine performs the whole queue, one micro-operation a step, and then the operation has ended (R35). -/
theorem steps_queue {s : State} {us : List MicroOp} (hq : s.uq = us) (hne : us ≠ []) (hb : s.busy = true)
    (hw : Waits s.inputs) (hcan : CanPerform s us) : steps us.length s = .next ((s.afterOps us).retire []) := by
  induction us generalizing s with
  | nil => exact absurd rfl hne
  | cons u us ih =>
    have hstep : step s = .next ((s.afterOp u).retire us) := by
      have h := step_performs (left := s.inputs) hq hcan.perform_eq
        (hw.imp (fun h => ⟨rfl, h⟩) fun h => .inl ⟨rfl, hb, h⟩)
      rwa [← afterOp_inputs s u] at h
    rw [List.length_cons, steps_succ hstep]
    by_cases hus : us = []
    · subst hus
      rfl
    · rw [ih (retire_uq _ _) hus, afterOps_retire hus]
      · rfl
      · rw [retire_of_ne_nil hus]
        exact (afterOp_busy s u).trans hb
      · rw [retire_inputs, afterOp_inputs]
        exact hw
      · rw [retire_of_ne_nil hus]
        exact hcan.tail

/-! From the submission to the end (R36). -/

/-- An operation whose check passes is accepted, under each of its names (R88). -/
theorem exec_of_accepts {s t : State} {i j : Instr} (hj : i.core s.cfg.params = j) (hb : s.busy = false)
    (h : Accepts s j t) : exec i s = .next t := by
  rw [exec_core, hj]
  cases h with
  | xfer d buf len ready fits => simp [exec, execXfer, submitXfer, checkXfer_none.2 ⟨ready, fits⟩, submit_none hb]
  | wreg opc ps ready fits => simp [exec, execWreg, submitWreg, checkWreg_none.2 ⟨ready, fits⟩, submit_none hb]
  | init cold => simp [exec, execInit, checkInit_none.2 cold, submit_none hb]
  | flush x1 y1 x2 y2 buf len ready rect size fits =>
    simp [exec, execFlush, checkFlush_none.2 ⟨ready, rect, size, fits⟩, submit_none hb]
  | setbl level fits => simp [exec, execSetbl, checkSetbl_none.2 fits, submit_none hb]

theorem Accepts.busy {s t : State} {i : Instr} (h : Accepts s i t) : t.busy = true := by
  cases h <;> rfl

/-- An issued operation that is accepted runs to its end in one step more than its queue is long. -/
theorem steps_issue {s t : State} {i j : Instr} {l : List Input} (hin : s.inputs = .issue i :: l) (hl : Waits l)
    (hi : i.wellFormed = true) (hj : i.core s.cfg.params = j) (hb : s.busy = false)
    (h : Accepts (s.withInputs l) j t) : steps (1 + t.uq.length) s = .next ((t.afterOps t.uq).retire []) := by
  have hstep : step s = .next t := by
    rw [step_issue_ready hin hb, submitInstr_wellFormed hi, exec_of_accepts (s := s.withInputs l) hj hb h]
  obtain ⟨hne, hrun⟩ := h.runnable
  have hw : Waits t.inputs := by rw [h.frame.inputs]; exact hl
  rw [← h.frame.cfg] at hrun
  rw [Nat.add_comm, steps_succ hstep, steps_queue rfl hne h.busy hw hrun.canPerform]

/-! One transport call (R100). -/

/-- The state after the bytes `vs`, shifted out one after the other (R24). -/
def State.shiftAll (s : State) (vs : List Byte) : State := vs.foldl State.shiftOut s

/-- SCLK and MOSI after `vs`: where they were if there is no byte, else as the last byte leaves them (log 11). -/
def State.linesAfter (s : State) (vs : List Byte) : Lines :=
  { s.lines with
    sclk := if vs = [] then s.lines.sclk else s.cfg.params.spiCpol
    mosi := if vs = [] then s.lines.mosi else Config.freeMosi (s.freeCount + (vs.length - 1)) }

theorem shiftAll_eq (s : State) (vs : List Byte) : s.shiftAll vs =
    { s with lines := s.linesAfter vs, freeCount := s.freeCount + vs.length, trace := s.trace ++ vs.map .byte } := by
  induction vs generalizing s with
  | nil => simp [State.shiftAll, State.linesAfter]
  | cons v vs ih =>
    have hfirst : s.shiftAll (v :: vs) = (s.shiftOut v).shiftAll vs := rfl
    have hcount : s.freeCount + 1 + vs.length = s.freeCount + (vs.length + 1) := by omega
    have hlines : (s.shiftOut v).linesAfter vs = s.linesAfter (v :: vs) := by
      cases vs with
      | nil => rfl
      | cons v' vs =>
        have hlast : s.freeCount + 1 + vs.length = s.freeCount + (vs.length + 1) := by omega
        simp [State.linesAfter, hlast]
    rw [hfirst, ih, hlines]
    simp [State.shiftOut, hcount]

/-- The state after `Call(d, bytes)` (R100). -/
def State.sendCall (s : State) (d : Bool) (vs : List Byte) : State :=
  { s with
    lines := { s.linesAfter vs with cs := true, dc := d }
    freeCount := s.freeCount + vs.length
    trace := s.trace ++ callEvents d vs }

/-- A call whose micro-operations shift the bytes `g a` out, whatever has been shifted out before. -/
theorem afterOps_busCall {α : Type} {f : α → MicroOp} {g : α → Byte} {s : State} {l : List α}
    (h : ∀ a ∈ l, ∀ t : State, t.txbuf = s.txbuf → t.mem = s.mem → t.lat = s.lat → t.afterOp (f a) = t.shiftOut (g a))
    (d : Bool) : s.afterOps (busCall d (l.map f)) = s.sendCall d (l.map g) := by
  have hshift (t : State) (htx : t.txbuf = s.txbuf) (hmem : t.mem = s.mem) (hlat : t.lat = s.lat) :
      t.afterOps (l.map f) = t.shiftAll (l.map g) := by
    induction l generalizing t with
    | nil => rfl
    | cons a l ih =>
      rw [List.map_cons, afterOps_cons, h a (by simp) t htx hmem hlat]
      exact ih (fun b hb => h b (by simp [hb])) _ htx hmem hlat
  rw [busCall, afterOps_append, afterOps_append, hshift (s.afterOps [.cs false, .dc d]) rfl rfl rfl, shiftAll_eq]
  simp [State.afterOp, State.emit, State.setCs, State.setDc, State.linesAfter, State.sendCall, callEvents]

theorem afterOps_callImm (s : State) (d : Bool) (vs : List Byte) : s.afterOps (callImm d vs) = s.sendCall d vs := by
  rw [callImm_eq, afterOps_busCall (g := id) fun _ _ _ _ _ _ => rfl, List.map_id]

/-- A call from TXBUF sends its first `n` bytes (R37). -/
theorem afterOps_callTx {s : State} {n : Nat} (hn : n ≤ s.txbuf.length) :
    s.afterOps (callTx n) = s.sendCall true (s.txbuf.take n) := by
  have hbytes : (indices n).map (fun i => s.txbuf.getD i 0) = s.txbuf.take n := by
    apply List.ext_getElem
    · simp [indices, hn]
    · intro i hi hi'
      have hlt : i < s.txbuf.length := by simp at hi'; omega
      simp [indices, List.getD, hlt]
  rw [callTx_eq, afterOps_busCall (g := fun i => s.txbuf.getD i 0)
    fun i _ t htx _ _ => by rw [State.afterOp, htx], hbytes]

/-- A call from the host buffer sends the bytes of host memory from BUF on (R55). -/
theorem afterOps_callSrc (s : State) (d : Bool) (m : Nat) :
    s.afterOps (callSrc d m) = s.sendCall d (hostBytes s.mem s.lat.buf.toNat m) := by
  rw [callSrc_eq, afterOps_busCall (g := fun i => Memory.read s.mem (s.lat.buf.toNat + i))
    fun i _ t _ hmem hlat => by rw [State.afterOp, hmem, hlat]]
  rfl

/-! One register command (R111). -/

/-- The state after the register command `(opc, bs)`: one call, or two with TXBUF filled between them (R111). -/
def State.sendCommand (s : State) (opc : Byte) (bs : List Byte) : State :=
  if bs.length = 0 then s.sendCall false [opc] else ((s.sendCall false [opc]).fillTx bs).sendCall true bs

theorem afterOps_wregOps (s : State) (opc : Byte) (bs : List Byte) :
    s.afterOps (wregOps opc bs) = s.sendCommand opc bs := by
  rw [wregOps, afterOps_append, afterOps_callImm, State.sendCommand]
  split
  · rfl
  · have htake : ((s.sendCall false [opc]).fillTx bs).txbuf.take bs.length = bs := List.take_left' rfl
    rw [List.singleton_append, afterOps_cons, State.afterOp, afterOps_callTx (by simp), htake]

theorem wregOps_length (opc : Byte) (bs : List Byte) : (wregOps opc bs).length = commandLength bs.length := by
  unfold wregOps commandLength
  split
  · rfl
  · simp [callImm, callTx, indices]
    omega

@[simp] theorem sendCommand_cfg (s : State) (opc : Byte) (bs : List Byte) : (s.sendCommand opc bs).cfg = s.cfg := by
  unfold State.sendCommand; split <;> rfl
@[simp] theorem sendCommand_lat (s : State) (opc : Byte) (bs : List Byte) : (s.sendCommand opc bs).lat = s.lat := by
  unfold State.sendCommand; split <;> rfl
@[simp] theorem sendCommand_phase (s : State) (opc : Byte) (bs : List Byte) : (s.sendCommand opc bs).phase = s.phase := by
  unfold State.sendCommand; split <;> rfl
@[simp] theorem sendCommand_done (s : State) (opc : Byte) (bs : List Byte) : (s.sendCommand opc bs).done = s.done := by
  unfold State.sendCommand; split <;> rfl
@[simp] theorem sendCommand_fault (s : State) (opc : Byte) (bs : List Byte) : (s.sendCommand opc bs).fault = s.fault := by
  unfold State.sendCommand; split <;> rfl
@[simp] theorem sendCommand_pwm (s : State) (opc : Byte) (bs : List Byte) : (s.sendCommand opc bs).pwm = s.pwm := by
  unfold State.sendCommand; split <;> rfl
@[simp] theorem sendCommand_tmr (s : State) (opc : Byte) (bs : List Byte) : (s.sendCommand opc bs).tmr = s.tmr := by
  unfold State.sendCommand; split <;> rfl
@[simp] theorem sendCommand_mem (s : State) (opc : Byte) (bs : List Byte) : (s.sendCommand opc bs).mem = s.mem := by
  unfold State.sendCommand; split <;> rfl
@[simp] theorem sendCommand_inputs (s : State) (opc : Byte) (bs : List Byte) :
    (s.sendCommand opc bs).inputs = s.inputs := by
  unfold State.sendCommand; split <;> rfl
@[simp] theorem sendCommand_readback (s : State) (opc : Byte) (bs : List Byte) :
    (s.sendCommand opc bs).readback = s.readback := by
  unfold State.sendCommand; split <;> rfl
@[simp] theorem sendCommand_cs (s : State) (opc : Byte) (bs : List Byte) : (s.sendCommand opc bs).lines.cs = true := by
  unfold State.sendCommand; split <;> rfl
@[simp] theorem sendCommand_rst (s : State) (opc : Byte) (bs : List Byte) :
    (s.sendCommand opc bs).lines.rst = s.lines.rst := by
  unfold State.sendCommand; split <;> rfl
@[simp] theorem sendCommand_trace (s : State) (opc : Byte) (bs : List Byte) :
    (s.sendCommand opc bs).trace = s.trace ++ commandEvents opc bs := by
  unfold State.sendCommand commandEvents
  split <;> simp [State.sendCall]

/-- DC is left at 0 by a command without parameters and at 1 by one with (R22, R72). -/
@[simp] theorem sendCommand_dc (s : State) (opc : Byte) (bs : List Byte) :
    (s.sendCommand opc bs).lines.dc = !bs.isEmpty := by
  cases bs <;> rfl
/-- TXBUF is written by a command with parameters only (R37, R111). -/
@[simp] theorem sendCommand_txbuf (s : State) (opc : Byte) (bs : List Byte) :
    (s.sendCommand opc bs).txbuf = bs ++ s.txbuf.drop bs.length := by
  cases bs <;> rfl
@[simp] theorem sendCommand_txlen (s : State) (opc : Byte) (bs : List Byte) :
    (s.sendCommand opc bs).txlen = if bs = [] then s.txlen else bs.length := by
  cases bs <;> rfl

/-! The operations, each from its submission to its end (R101, R112, R140). -/

/-- The state after the register command `(opc, ps)` has run to its end, with the acts `l` left. -/
def State.afterCommand (s : State) (opc : Byte) (ps : List Word) (l : List Input) : State :=
  ((((s.withInputs l).accept (s.lat.loadWreg opc (BitVec.ofNat 16 ps.length)) (expandWreg opc ps)).sendCommand opc
    (ps.map trunc8)).retire [])

theorem steps_command {s : State} {opc : Byte} {ps : List Word} {i : Instr} {l : List Input}
    (hin : s.inputs = .issue i :: l) (hl : Waits l) (hi : isRegisterCommand s.cfg.params opc ps i)
    (hwf : i.wellFormed = true) (hb : s.busy = false) (hp : s.phase = .ready)
    (hn : ps.length ≤ s.cfg.params.txbufCap) :
    steps (1 + commandLength ps.length) s = .next (s.afterCommand opc ps l) := by
  have h := steps_issue hin hl hwf hi.core hb (.wreg (s := s.withInputs l) opc ps hp hn)
  rwa [accept_uq, expandWreg, wregOps_length, List.length_map, afterOps_wregOps] at h

/-- The state after a raw transfer has run to its end, with the acts `l` left. -/
def State.afterTransfer (s : State) (d : Bool) (buf len : Word) (l : List Input) : State :=
  ((((s.withInputs l).accept (s.lat.loadXfer d buf len) (expandXfer d len)).sendCall d
    (hostBytes s.mem buf.toNat len.toNat)).retire [])

theorem callSrc_length (d : Bool) (m : Nat) : (callSrc d m).length = 3 + m := by
  simp [callSrc, indices]
  omega

theorem steps_transfer {s : State} {d : Bool} {buf len : Word} {i : Instr} {l : List Input}
    (hin : s.inputs = .issue i :: l) (hl : Waits l) (hi : isTransfer d buf len i) (hb : s.busy = false)
    (hp : s.phase = .ready) (hfits : buf.toNat + len.toNat ≤ 4294967296) :
    steps (1 + (3 + len.toNat)) s = .next (s.afterTransfer d buf len l) := by
  have hwf : i.wellFormed = true := by obtain rfl | ⟨-, rfl⟩ := hi <;> rfl
  have h := steps_issue hin hl hwf (hi.core _) hb (.xfer (s := s.withInputs l) d buf len hp hfits)
  rwa [accept_uq, expandXfer, callSrc_length, afterOps_callSrc] at h

/-- The state after a FLUSH has run to its end, with the acts `l` left. -/
def State.afterFlush (s : State) (x1 y1 x2 y2 : Half) (buf len : Word) (l : List Input) : State :=
  ((((((((s.withInputs l).clearDone.accept (s.lat.loadFlush x1 y1 x2 y2 buf len)
      (expandFlush s.cfg.params x1 y1 x2 y2 len)).sendCommand s.cfg.params.cmdCaset (windowBytes x1 x2)).sendCommand
      s.cfg.params.cmdRaset (windowBytes (offsetRow s.cfg.params y1) (offsetRow s.cfg.params y2))).sendCommand
      s.cfg.params.cmdRamwr []).sendCall true (hostBytes s.mem buf.toNat len.toNat)).setDone.emit .done).retire [])

theorem expandFlush_length (p : Params) (x1 y1 x2 y2 : Half) (len : Word) :
    (expandFlush p x1 y1 x2 y2 len).length = len.toNat + 32 := by
  have hwindow (a b : Half) : (windowBytes a b).length = 4 := rfl
  simp [expandFlush, wregOps_length, callSrc_length, hwindow, commandLength]
  omega

theorem afterOps_expandFlush (s : State) (p : Params) (x1 y1 x2 y2 : Half) (len : Word) :
    s.afterOps (expandFlush p x1 y1 x2 y2 len) =
      ((((s.sendCommand p.cmdCaset (windowBytes x1 x2)).sendCommand p.cmdRaset
        (windowBytes (offsetRow p y1) (offsetRow p y2))).sendCommand p.cmdRamwr []).sendCall true
        (hostBytes s.mem s.lat.buf.toNat len.toNat)).setDone.emit .done := by
  simp only [expandFlush, afterOps_append, afterOps_wregOps, afterOps_callSrc, sendCommand_mem, sendCommand_lat]
  rfl

theorem steps_flush {s : State} {x1 y1 x2 y2 : Half} {buf len : Word} {l : List Input}
    (hin : s.inputs = .issue (.flush x1 y1 x2 y2 buf len) :: l) (hl : Waits l) (hb : s.busy = false)
    (hp : s.phase = .ready) (hfits : flushFits s.cfg.params x1 y1 x2 y2 buf len) :
    steps (1 + (len.toNat + 32)) s = .next (s.afterFlush x1 y1 x2 y2 buf len l) := by
  obtain ⟨hrect, hsize, hbuf⟩ := hfits
  have h := steps_issue hin hl rfl rfl hb
    (.flush (s := s.withInputs l) x1 y1 x2 y2 buf len hp (rectOk_true.2 hrect) hsize hbuf)
  rwa [accept_uq, expandFlush_length, afterOps_expandFlush] at h

/-! Parameters as words and as bytes (R73). -/

theorem trunc8_eq_ofNat : trunc8 = fun v : Word => BitVec.ofNat 8 v.toNat := rfl

@[simp] theorem trunc8_zext32 (b : Byte) : trunc8 (zext32 b) = b := by
  apply BitVec.eq_of_toNat_eq
  simp [trunc8, zext32]
  exact b.isLt

@[simp] theorem map_trunc8_map_zext32 (bs : List Byte) : (bs.map zext32).map trunc8 = bs := by
  simp [Function.comp_def]

/-- The steps of a register command, in the words of R111. -/
theorem commandLength_length (ps : List Word) :
    commandLength ps.length = if ps = [] then 4 else 8 + ps.length := by
  simp [commandLength]

theorem commandEvents_map_trunc8 (opc : Byte) (ps : List Word) :
    commandEvents opc (ps.map trunc8) = [.cs false, .dc false, .byte opc, .cs true] ++
      (if ps = [] then []
       else [.cs false, .dc true] ++ ps.map (fun P => Event.byte (BitVec.ofNat 8 P.toNat)) ++ [.cs true]) := by
  simp [commandEvents, callEvents, trunc8_eq_ofNat, Function.comp_def]

theorem afterCommand_finished (s : State) (opc : Byte) (ps : List Word) : Finished s (s.afterCommand opc ps []) := by
  constructor <;> simp [State.afterCommand]

theorem afterCommand_trace (s : State) (opc : Byte) (ps : List Word) (l : List Input) :
    (s.afterCommand opc ps l).trace = s.trace ++ commandEvents opc (ps.map trunc8) := by
  simp [State.afterCommand]

/-- Settles O17: `steps_command`, and the state after it field by field. -/
theorem registerCommandRunsToEnd : Obligations.RegisterCommandRunsToEnd := by
  intro opc ps i s hi hwf hb hp hn hin
  have hrun := steps_command hin (.inl rfl) hi hwf hb hp hn
  rw [commandLength_length] at hrun
  refine ⟨_, hrun, afterCommand_finished s opc ps, ?_, ?_, ?_, ?_, ?_, ?_, ?_, ?_, ?_, ?_⟩
  · rw [afterCommand_trace, commandEvents_map_trunc8, ← List.append_assoc]
  · rintro rfl
    exact ⟨rfl, rfl, rfl⟩
  · intro hne
    simp [State.afterCommand, hne, trunc8_eq_ofNat]
  · simp [State.afterCommand]
  · simp [State.afterCommand]
  · simp [State.afterCommand, Latches.loadWreg]
  · simp [State.afterCommand]
  · simp [State.afterCommand]
  · simp [State.afterCommand]
  · simp [State.afterCommand, hp, Phase.settle]

/-! Operations one after the other. -/

/-- From `s` the operation has added `es` to TRACE and ended in `t`, with the acts `l` left. -/
structure Sends (es : List Event) (l : List Input) (s t : State) : Prop where
  trace : t.trace = s.trace ++ es
  inputs : t.inputs = l
  busy : t.busy = false
  phase : t.phase = .ready
  done : t.done = s.done
  cfg : t.cfg = s.cfg
  mem : t.mem = s.mem

theorem command_sends {s : State} {opc : Byte} {ps : List Word} {i : Instr} {l : List Input}
    (hin : s.inputs = .issue i :: l) (hl : Waits l) (hi : isRegisterCommand s.cfg.params opc ps i)
    (hwf : i.wellFormed = true) (hb : s.busy = false) (hp : s.phase = .ready)
    (hn : ps.length ≤ s.cfg.params.txbufCap) :
    ∃ t, steps (1 + commandLength ps.length) s = .next t ∧ Sends (commandEvents opc (ps.map trunc8)) l s t := by
  refine ⟨_, steps_command hin hl hi hwf hb hp hn, ?_⟩
  constructor <;> simp [State.afterCommand, hp, Phase.settle]

theorem transfer_sends {s : State} {d : Bool} {buf len : Word} {i : Instr} {l : List Input}
    (hin : s.inputs = .issue i :: l) (hl : Waits l) (hi : isTransfer d buf len i) (hb : s.busy = false)
    (hp : s.phase = .ready) (hfits : buf.toNat + len.toNat ≤ 4294967296) :
    ∃ t, steps (1 + (3 + len.toNat)) s = .next t ∧
      Sends (callEvents d (hostBytes s.mem buf.toNat len.toNat)) l s t := by
  refine ⟨_, steps_transfer hin hl hi hb hp hfits, ?_⟩
  constructor <;> simp [State.afterTransfer, State.sendCall, hp, Phase.settle]

theorem waits_issue (i : Instr) (l : List Input) : Waits (.issue i :: l) := .inr (.inr ⟨i, l, rfl⟩)

theorem isRegisterCommand_caset (p : Params) (a b : Half) :
    isRegisterCommand p p.cmdCaset ((windowBytes a b).map zext32) (.caset a b) :=
  .inr (.inr (.inr (.inr (.inl ⟨a, b, rfl, rfl, rfl⟩))))

theorem isRegisterCommand_raset (p : Params) (a b : Half) :
    isRegisterCommand p p.cmdRaset ((windowBytes a b).map zext32) (.raset a b) :=
  .inr (.inr (.inr (.inr (.inr (.inl ⟨a, b, rfl, rfl, rfl⟩)))))

theorem isRegisterCommand_ramwr (p : Params) : isRegisterCommand p p.cmdRamwr [] .ramwr :=
  .inr (.inr (.inr (.inl ⟨rfl, rfl, rfl⟩)))

/-- The four pseudo-operations of R88's flush, run one after the other, and the events they add. -/
theorem pseudoFlush_sends {s : State} {a b c d : Half} {buf len : Word} (hb : s.busy = false) (hp : s.phase = .ready)
    (hfits : buf.toNat + len.toNat ≤ 4294967296)
    (hin : s.inputs = [.issue (.caset a b), .issue (.raset c d), .issue .ramwr, .issue (.pixels buf len)]) :
    ∃ u, steps (4 + (31 + len.toNat)) s = .next u ∧ u.busy = false ∧ u.done = s.done ∧
      u.trace = s.trace ++ commandEvents s.cfg.params.cmdCaset (windowBytes a b) ++
        commandEvents s.cfg.params.cmdRaset (windowBytes c d) ++ commandEvents s.cfg.params.cmdRamwr [] ++
        callEvents true (hostBytes s.mem buf.toNat len.toNat) := by
  obtain ⟨t₁, hrun₁, h₁⟩ := command_sends hin (waits_issue _ _) (isRegisterCommand_caset _ a b) rfl hb hp
    (four_le_txbufCap s.cfg)
  obtain ⟨t₂, hrun₂, h₂⟩ := command_sends h₁.inputs (waits_issue _ _) (isRegisterCommand_raset _ c d) rfl h₁.busy
    h₁.phase (four_le_txbufCap t₁.cfg)
  obtain ⟨t₃, hrun₃, h₃⟩ := command_sends h₂.inputs (waits_issue _ _) (isRegisterCommand_ramwr _) rfl h₂.busy h₂.phase
    (Nat.zero_le _)
  obtain ⟨u, hrun₄, h₄⟩ := transfer_sends h₃.inputs (.inl rfl) (.inr ⟨rfl, rfl⟩) h₃.busy h₃.phase hfits
  have hcount : 4 + (31 + len.toNat) = (1 + commandLength 4) + ((1 + commandLength 4) +
      ((1 + commandLength 0) + (1 + (3 + len.toNat)))) := by
    simp [commandLength]
    omega
  refine ⟨u, ?_, h₄.busy, ?_, ?_⟩
  · rw [hcount]
    exact (steps_add hrun₁).trans ((steps_add hrun₂).trans ((steps_add hrun₃).trans hrun₄))
  · rw [h₄.done, h₃.done, h₂.done, h₁.done]
  · simp only [h₄.trace, h₃.trace, h₂.trace, h₁.trace, h₃.mem, h₂.mem, h₁.mem, h₂.cfg, h₁.cfg, map_trunc8_map_zext32,
      List.map_nil]

theorem afterFlush_trace (s : State) (x1 y1 x2 y2 : Half) (buf len : Word) (l : List Input) :
    (s.afterFlush x1 y1 x2 y2 buf len l).trace =
      s.trace ++ flushEvents s.cfg.params x1 y1 x2 y2 (hostBytes s.mem buf.toNat len.toNat) := by
  simp [State.afterFlush, State.sendCall, flushEvents]

/-- Settles O22: both runs to their end, and the events each adds. -/
theorem flushEqualsItsPseudoOperations : Obligations.FlushEqualsItsPseudoOperations := by
  intro x1 y1 x2 y2 buf len s hb hp hfits
  obtain ⟨u, hrun, hbusy, hdone, htrace⟩ := pseudoFlush_sends (s := s.withInputs [.issue (.caset x1 x2),
    .issue (.raset (offsetRow s.cfg.params y1) (offsetRow s.cfg.params y2)), .issue .ramwr, .issue (.pixels buf len)])
    hb hp hfits.2.2 rfl
  refine ⟨_, u, steps_flush rfl (.inl rfl) hb hp hfits, hrun, ?_, rfl, hbusy, rfl, hdone⟩
  rw [htrace, afterFlush_trace]
  simp [flushEvents]

end Sys2Proof.Machine
end

section
/-! Proofs, layer 10: TRACE read as transport calls (R41, R72, R106). -/

namespace Sys2Proof.Machine

/-! Calls at the front of a trace. -/

theorem takeBytes_map_byte (bs : List Byte) (t : List Event) :
    takeBytes (bs.map Event.byte ++ .cs true :: t) = some (bs, t) := by
  induction bs with
  | nil => rfl
  | cons v bs ih => simp [takeBytes, ih]

theorem takeCall_callEvents (d : Bool) (bs : List Byte) (t : List Event) :
    takeCall (callEvents d bs ++ t) = some (.call d bs, t) := by
  simp [callEvents, takeCall, takeBytes_map_byte]

theorem takeCall_of_between {e : Event} (he : Wire.idle.next e = some .idle) (t : List Event) :
    takeCall (e :: t) = none := by
  cases e with
  | cs b => cases b <;> cases he
  | _ => rfl

theorem takeBytes_length_lt {t rest : List Event} {bs : List Byte} (h : takeBytes t = some (bs, rest)) :
    rest.length < t.length := by
  induction t generalizing bs with
  | nil => cases h
  | cons e t ih =>
    cases e with
    | byte v =>
      simp only [takeBytes] at h
      split at h <;> cases h
      have := ih ‹_›
      simp only [List.length_cons]
      omega
    | cs b =>
      cases b <;> cases h
      exact Nat.lt_succ_self _
    | _ => cases h

theorem takeCall_length_lt {t rest : List Event} {c : WireItem} (h : takeCall t = some (c, rest)) :
    rest.length < t.length := by
  unfold takeCall at h
  split at h
  · split at h <;> cases h
    have := takeBytes_length_lt ‹_›
    simp only [List.length_cons]
    omega
  · cases h

/-- A bound of the length of the trace is as good as any greater one. -/
theorem callsUpTo_of_length_le {m n : Nat} {t : List Event} (hm : t.length ≤ m) (hn : t.length ≤ n) :
    callsUpTo m t = callsUpTo n t := by
  induction m generalizing n t with
  | zero =>
    obtain rfl := List.length_eq_zero_iff.1 (Nat.le_zero.1 hm)
    cases n <;> rfl
  | succ m ih =>
    cases t with
    | nil => cases n <;> rfl
    | cons e t =>
      cases n with
      | zero => simp at hn
      | succ n =>
        simp only [List.length_cons, Nat.add_le_add_iff_right] at hm hn
        simp only [callsUpTo]
        split
        · rename_i c rest hcall
          have hlt : rest.length < t.length + 1 := takeCall_length_lt hcall
          rw [ih (n := n) (by omega) (by omega)]
        · rw [ih hm hn]

/-- A whole call at the front is the first item, and what follows it is read on its own (R41). -/
theorem calls_of_takeCall {t rest : List Event} {c : WireItem} (h : takeCall t = some (c, rest)) :
    calls t = c :: calls rest := by
  cases t with
  | nil => cases h
  | cons e t =>
    have hlt : rest.length < t.length + 1 := takeCall_length_lt h
    rw [calls, List.length_cons, calls, ← callsUpTo_of_length_le (m := t.length) (by omega) (Nat.le_refl _)]
    simp only [callsUpTo, h]

theorem calls_callEvents_append (d : Bool) (bs : List Byte) (t : List Event) :
    calls (callEvents d bs ++ t) = .call d bs :: calls t :=
  calls_of_takeCall (takeCall_callEvents d bs t)

theorem calls_cons_of_between {e : Event} (he : Wire.idle.next e = some .idle) (t : List Event) :
    calls (e :: t) = .event e :: calls t := by
  simp [calls, callsUpTo, takeCall_of_between he]

/-! A trace that ends between calls (R106). -/

/-- Whole calls, and other events between them. -/
inductive WholeCalls : List Event → Prop where
  | nil : WholeCalls []
  | event {e : Event} {t : List Event} (he : Wire.idle.next e = some .idle) (ht : WholeCalls t) : WholeCalls (e :: t)
  | call (d : Bool) (bs : List Byte) {t : List Event} (ht : WholeCalls t) : WholeCalls (callEvents d bs ++ t)

/-- After CS has fallen DC is set. -/
theorem exists_dc_of_selected {t : List Event} (h : t.foldlM Wire.next .selected = some .idle) :
    ∃ d rest, t = .dc d :: rest ∧ rest.foldlM Wire.next (.inCall d) = some .idle := by
  cases t with
  | nil => cases h
  | cons e t =>
    obtain ⟨w, hw, ht⟩ := Option.bind_eq_some_iff.1 h
    cases e with
    | dc d =>
      cases hw
      exact ⟨d, t, rfl, ht⟩
    | _ => cases hw

/-- Inside a call bytes follow until CS rises. -/
theorem exists_bytes_of_inCall {d : Bool} {t : List Event} (h : t.foldlM Wire.next (.inCall d) = some .idle) :
    ∃ (bs : List Byte) (rest : List Event), t = bs.map Event.byte ++ .cs true :: rest ∧
      rest.foldlM Wire.next .idle = some .idle := by
  induction t with
  | nil => cases h
  | cons e t ih =>
    obtain ⟨w, hw, ht⟩ := Option.bind_eq_some_iff.1 h
    cases e with
    | cs b =>
      cases b <;> cases hw
      exact ⟨[], t, rfl, ht⟩
    | byte v =>
      cases hw
      obtain ⟨bs, rest, rfl, hrest⟩ := ih ht
      exact ⟨v :: bs, rest, rfl, hrest⟩
    | _ => cases hw

/-- A trace that keeps the order of R106 and ends with the wires between calls is made of whole calls. -/
theorem wholeCalls_of_wireAfter {t : List Event} (h : wireAfter t = some .idle) : WholeCalls t := by
  induction hn : t.length using Nat.strongRecOn generalizing t with
  | ind n ih =>
    subst hn
    cases t with
    | nil => exact .nil
    | cons e t =>
      obtain ⟨w, hw, ht⟩ := Option.bind_eq_some_iff.1 h
      cases e with
      | cs b =>
        cases b <;> cases hw
        obtain ⟨d, t, rfl, ht⟩ := exists_dc_of_selected ht
        obtain ⟨bs, rest, rfl, hrest⟩ := exists_bytes_of_inCall ht
        have hcall : .cs false :: .dc d :: (bs.map Event.byte ++ .cs true :: rest) = callEvents d bs ++ rest := by
          simp [callEvents]
        have hrest : WholeCalls rest := ih rest.length (by simp; omega) hrest rfl
        exact hcall ▸ .call d bs hrest
      | dc d | byte v => cases hw
      | _ =>
        cases hw
        exact .event rfl (ih t.length (Nat.lt_succ_self _) ht rfl)

theorem calls_append {t : List Event} (ht : WholeCalls t) (t' : List Event) : calls (t ++ t') = calls t ++ calls t' := by
  induction ht with
  | nil => rfl
  | event he ht ih => rw [List.cons_append, calls_cons_of_between he, calls_cons_of_between he, ih, List.cons_append]
  | call d bs ht ih =>
    rw [List.append_assoc, calls_callEvents_append, calls_callEvents_append, ih, List.cons_append]

theorem calls_callEvents (d : Bool) (bs : List Byte) : calls (callEvents d bs) = [.call d bs] := by
  have h := calls_callEvents_append d bs []
  rwa [List.append_nil] at h

theorem calls_commandEvents (opc : Byte) (bs : List Byte) : calls (commandEvents opc bs) = commandCalls opc bs := by
  unfold commandEvents commandCalls
  rw [calls_callEvents_append]
  split
  · rfl
  · rw [calls_callEvents]

/-- Settles O56: TRACE so far is whole calls, and the command adds its own. -/
theorem registerCommandAddsOneOrTwoCalls : Obligations.RegisterCommandAddsOneOrTwoCalls := by
  intro opc ps i s hinv hi hwf hb hp hn hin
  obtain ⟨t, hrun, ht⟩ := command_sends hin (.inl rfl) hi hwf hb hp hn
  have hcalls : calls t.trace = calls s.trace ++ commandCalls opc (ps.map trunc8) := by
    rw [ht.trace, calls_append (wholeCalls_of_wireAfter (hinv.wire_idle hb).1), calls_commandEvents]
  refine ⟨t, hrun, ht.busy, ?_, fun hne => ?_⟩
  · rintro rfl
    exact hcalls
  · rw [hcalls, commandCalls, if_neg (by simpa using hne), trunc8_eq_ofNat]

end Sys2Proof.Machine
end

section
/-! Proofs, layer 11: the raw transfer (R101, R102), and where an event may stand in TRACE (R106). -/

namespace Sys2Proof.Machine

/-! The raw transfer (R101). -/

/-- Settles O11: the check passes, and the acceptance is XFER's, under either name (R88). -/
theorem transferAccepted : Obligations.TransferAccepted := by
  intro d buf len i s hi hb hp hfits
  exact exec_of_accepts (hi.core s.cfg.params) hb (.xfer d buf len hp hfits)

theorem afterTransfer_finished (s : State) (d : Bool) (buf len : Word) : Finished s (s.afterTransfer d buf len []) := by
  constructor <;> simp [State.afterTransfer, State.sendCall]

theorem afterTransfer_trace (s : State) (d : Bool) (buf len : Word) (l : List Input) :
    (s.afterTransfer d buf len l).trace = s.trace ++ callEvents d (hostBytes s.mem buf.toNat len.toNat) := by
  simp [State.afterTransfer, State.sendCall]

theorem afterTransfer_phase {s : State} (hp : s.phase = .ready) (d : Bool) (buf len : Word) (l : List Input) :
    (s.afterTransfer d buf len l).phase = .ready := by
  simp [State.afterTransfer, State.sendCall, hp, Phase.settle]

/-- Settles O16: `steps_transfer`, and the state after it field by field. -/
theorem transferRunsToEnd : Obligations.TransferRunsToEnd := by
  intro d buf len i s hi hb hp hfits hin
  exact ⟨_, steps_transfer hin (.inl rfl) hi hb hp hfits, afterTransfer_finished s d buf len,
    afterTransfer_trace s d buf len [], rfl, rfl, rfl, rfl, rfl, rfl, rfl, rfl, rfl, afterTransfer_phase hp d buf len []⟩

/-! From which place in a call an event may be emitted (R106). -/

theorem eq_idle_of_between {w w' : Wire} (h : w.between = some w') : w = .idle := by
  cases w <;> cases h
  rfl

theorem ne_idle_of_shift {w w' : Wire} (h : w.shift = some w') : w ≠ .idle := by
  rintro rfl
  cases h

theorem dataCommand_eq_some {w w' : Wire} {d : Bool} (h : w.dataCommand d = some w') :
    w = .selected ∧ w' = .inCall d := by
  cases w <;> cases h
  exact ⟨rfl, rfl⟩

theorem chipSelect_true_eq_some {w w' : Wire} (h : w.chipSelect true = some w') : w ≠ .idle ∧ w' = .idle := by
  cases w <;> cases h
  exact ⟨nofun, rfl⟩

theorem chipSelect_false_eq_some {w w' : Wire} (h : w.chipSelect false = some w') : w = .idle ∧ w' = .selected := by
  cases w <;> cases h
  exact ⟨rfl, rfl⟩

/-- Only the falling of CS selects the panel. -/
theorem eq_cs_false_of_next_selected {w : Wire} {e : Event} (h : w.next e = some .selected) : e = .cs false := by
  cases e with
  | cs b =>
    cases b with
    | false => rfl
    | true => cases (chipSelect_true_eq_some h).2
  | _ => cases w <;> cases h

/-! The wires along a trace (R106). -/

/-- The wires before, at and after an event of a trace that keeps the order of R106. -/
theorem wireAfter_split {pre post : List Event} {e : Event} {w : Wire} (h : wireAfter (pre ++ e :: post) = some w) :
    ∃ w₁ w₂, wireAfter pre = some w₁ ∧ w₁.next e = some w₂ ∧ post.foldlM Wire.next w₂ = some w := by
  rw [wireAfter, List.foldlM_append] at h
  obtain ⟨w₁, hpre, h⟩ := Option.bind_eq_some_iff.1 h
  obtain ⟨w₂, he, hpost⟩ := Option.bind_eq_some_iff.1 h
  exact ⟨w₁, w₂, hpre, he, hpost⟩

theorem wireAfter_concat {t : List Event} {e : Event} {w : Wire} (h : wireAfter (t ++ [e]) = some w) :
    ∃ w₁, wireAfter t = some w₁ ∧ w₁.next e = some w := by
  obtain ⟨w₁, w₂, ht, he, hw⟩ := wireAfter_split h
  cases hw
  exact ⟨w₁, ht, he⟩

/-- CS is 1 exactly between calls (R21). -/
theorem csLevel_eq_decide_idle {t : List Event} {w : Wire} (h : wireAfter t = some w) : csLevel t = decide (w = .idle) := by
  induction hr : t.reverse generalizing t w with
  | nil =>
    obtain rfl := List.reverse_eq_nil_iff.1 hr
    cases h
    rfl
  | cons e r ih =>
    obtain rfl := List.reverse_eq_cons_iff.1 hr
    obtain ⟨w₁, ht, he⟩ := wireAfter_concat h
    have hlevel := ih ht (List.reverse_reverse r)
    cases e with
    | cs b =>
      have hb : csLevel (r.reverse ++ [.cs b]) = b := by simp [csLevel]
      rw [hb]
      cases b with
      | false =>
        obtain ⟨-, rfl⟩ := chipSelect_false_eq_some he
        rfl
      | true =>
        obtain ⟨-, rfl⟩ := chipSelect_true_eq_some he
        rfl
    | dc d =>
      obtain ⟨rfl, rfl⟩ := dataCommand_eq_some he
      simpa [csLevel] using hlevel
    | byte v =>
      obtain rfl := shift_eq_some he
      simpa [csLevel] using hlevel
    | _ =>
      obtain rfl := between_eq_some he
      simpa [csLevel] using hlevel

theorem csLevel_of_idle {t : List Event} (h : wireAfter t = some .idle) : csLevel t = true := by
  simp [csLevel_eq_decide_idle h]

theorem csLevel_of_ne_idle {t : List Event} {w : Wire} (h : wireAfter t = some w) (hw : w ≠ .idle) : csLevel t = false := by
  simp [csLevel_eq_decide_idle h, hw]

theorem agrees_cs {w : Wire} {l : Lines} (h : w.agrees l = true) : l.cs = decide (w = .idle) := by
  cases w <;> simp_all [Wire.agrees]

/-- The wires are selected only directly after CS has fallen. -/
theorem getLast?_of_selected {t : List Event} (h : wireAfter t = some .selected) : t.getLast? = some (.cs false) := by
  obtain rfl | ⟨t, e, rfl⟩ := List.eq_nil_or_concat t
  · cases h
  · rw [List.concat_eq_append] at h ⊢
    obtain ⟨w, -, he⟩ := wireAfter_concat h
    rw [eq_cs_false_of_next_selected he, List.getLast?_concat]

/-- The only event that may follow the falling of CS is DC. -/
theorem head?_of_selected {t : List Event} {w : Wire} (h : t.foldlM Wire.next .selected = some w) :
    t = [] ∨ ∃ d, t.head? = some (.dc d) := by
  cases t with
  | nil => exact .inl rfl
  | cons e t =>
    obtain ⟨w', he, -⟩ := Option.bind_eq_some_iff.1 h
    cases e with
    | dc d => exact .inr ⟨d, rfl⟩
    | _ => cases he

/-- Settles O41: the invariant gives the wires before the event, and they decide which event may be emitted. -/
theorem wireDiscipline : Obligations.WireDiscipline := by
  intro s pre post e hinv htrace
  obtain ⟨w, hw, hlines, -⟩ := hinv.wire
  obtain ⟨w₁, w₂, hpre, he, hpost⟩ := wireAfter_split (htrace ▸ hw)
  refine ⟨?_, ?_, ?_, ?_, ?_, ?_⟩
  · rintro v rfl
    exact csLevel_of_ne_idle hpre (ne_idle_of_shift he)
  · rintro d rfl
    exact getLast?_of_selected ((dataCommand_eq_some he).1 ▸ hpre)
  · rintro rfl
    obtain ⟨rfl, rfl⟩ := chipSelect_false_eq_some he
    exact ⟨csLevel_of_idle hpre, head?_of_selected hpost⟩
  · rintro rfl
    exact csLevel_of_ne_idle hpre (chipSelect_true_eq_some he).1
  · rintro (⟨b, rfl⟩ | ⟨ms, rfl⟩ | ⟨v, rfl⟩ | rfl) <;> exact csLevel_of_idle (eq_idle_of_between he ▸ hpre)
  · rw [agrees_cs hlines, csLevel_eq_decide_idle hw]

end Sys2Proof.Machine
end

section
/-! Proofs, layer 12: the acceptance of a register command (R111, R112). -/

namespace Sys2Proof.Machine

/-- The queue of a register command as R111 lists it: the command phase, then the fill and the parameter phase if there
are parameters. -/
theorem expandWreg_eq_phases (opc : Byte) (ps : List Word) :
    expandWreg opc ps = [.cs false, .dc false, .imm opc, .cs true] ++
      (if ps = [] then []
       else [.fill (ps.map (fun P => BitVec.ofNat 8 P.toNat)), .cs false, .dc true] ++
        (List.range ps.length).map MicroOp.tx ++ [.cs true]) := by
  cases ps with
  | nil => rfl
  | cons p ps => simp [expandWreg, wregOps, callImm, callTx, indices, trunc8_eq_ofNat]

/-- Settles O12: the check passes, and the acceptance is WREG's, under each of its names (R88). -/
theorem registerCommandAccepted : Obligations.RegisterCommandAccepted := by
  intro opc ps i s hi hb hp hn
  rw [← expandWreg_eq_phases]
  exact exec_of_accepts hi.core hb (.wreg opc ps hp hn)

end Sys2Proof.Machine
end

section
/-! Proofs, layer 13: INIT from its submission to READY, and the length of its expansion (R121, R122, R124, R129). -/

namespace Sys2Proof.Machine

/-! The acceptance and the rejection (R121, R128). -/

/-- Settles O13: the check passes in COLD, and the acceptance is INIT's. -/
theorem initAccepted : Obligations.InitAccepted := by
  intro s hb hcold
  exact exec_of_accepts rfl hb (.init hcold)

theorem checkInit_some {s : State} (hp : s.phase ≠ .cold) : checkInit s = some .seqRerun := if_pos hp

/-- An operation that leaves BUSY = 1 was accepted. -/
theorem accepts_of_exec_busy {i : Instr} {s t : State} (h : exec i s = .next t) (hbusy : t.busy = true) :
    Accepts s (i.core s.cfg.params) t := by
  obtain ⟨hb, ⟨c, rfl⟩ | ⟨j, rfl, ha⟩⟩ := exec_next h
  · simp [hb] at hbusy
  · exact ha

/-- Settles O26: the check fails outside COLD, only the acceptance sets BUSY, and no transition of R28 leads to COLD. -/
theorem initRejection : Obligations.InitRejection := by
  refine ⟨fun s hb hp => ?_, fun s t h hbusy => ?_, fun s t h hs ht => ?_⟩
  · rw [exec, execInit, checkInit_some hp, submit_some hb]
    rfl
  · cases accepts_of_exec_busy h hbusy with
    | init cold => exact cold
  · obtain hsame | ⟨-, hseq, -⟩ | ⟨-, hready, -⟩ | ⟨-, hreset⟩ := (phaseTransitions s t h).2
    · exact absurd (hsame ▸ ht) hs
    · rw [ht] at hseq; cases hseq
    · rw [ht] at hready; cases hready
    · exact hreset

/-! The script's commands, one after the other (R124). -/

/-- The state after the commands of a script. -/
def State.sendScript (s : State) (script : List (Byte × List Byte)) : State :=
  script.foldl (fun s e => s.sendCommand e.1 e.2) s

theorem scriptOps_cons (e : Byte × List Byte) (script : List (Byte × List Byte)) :
    scriptOps (e :: script) = wregOps e.1 e.2 ++ scriptOps script := rfl

theorem afterOps_scriptOps (s : State) (script : List (Byte × List Byte)) :
    s.afterOps (scriptOps script) = s.sendScript script := by
  induction script generalizing s with
  | nil => rfl
  | cons e script ih =>
    rw [scriptOps_cons, afterOps_append, afterOps_wregOps, ih]
    rfl

/-- What no register command changes, no script changes. -/
theorem sendScript_keeps {α : Type} {f : State → α} (hf : ∀ s opc bs, f (s.sendCommand opc bs) = f s) (s : State)
    (script : List (Byte × List Byte)) : f (s.sendScript script) = f s := by
  induction script generalizing s with
  | nil => rfl
  | cons e script ih => exact (ih _).trans (hf s e.1 e.2)

@[simp] theorem sendScript_cfg (s : State) (script : List (Byte × List Byte)) : (s.sendScript script).cfg = s.cfg :=
  sendScript_keeps sendCommand_cfg s script
@[simp] theorem sendScript_lat (s : State) (script : List (Byte × List Byte)) : (s.sendScript script).lat = s.lat :=
  sendScript_keeps sendCommand_lat s script
@[simp] theorem sendScript_phase (s : State) (script : List (Byte × List Byte)) : (s.sendScript script).phase = s.phase :=
  sendScript_keeps sendCommand_phase s script
@[simp] theorem sendScript_done (s : State) (script : List (Byte × List Byte)) : (s.sendScript script).done = s.done :=
  sendScript_keeps sendCommand_done s script
@[simp] theorem sendScript_fault (s : State) (script : List (Byte × List Byte)) : (s.sendScript script).fault = s.fault :=
  sendScript_keeps sendCommand_fault s script
@[simp] theorem sendScript_pwm (s : State) (script : List (Byte × List Byte)) : (s.sendScript script).pwm = s.pwm :=
  sendScript_keeps sendCommand_pwm s script
@[simp] theorem sendScript_tmr (s : State) (script : List (Byte × List Byte)) : (s.sendScript script).tmr = s.tmr :=
  sendScript_keeps sendCommand_tmr s script
@[simp] theorem sendScript_mem (s : State) (script : List (Byte × List Byte)) : (s.sendScript script).mem = s.mem :=
  sendScript_keeps sendCommand_mem s script
@[simp] theorem sendScript_inputs (s : State) (script : List (Byte × List Byte)) :
    (s.sendScript script).inputs = s.inputs :=
  sendScript_keeps sendCommand_inputs s script
@[simp] theorem sendScript_readback (s : State) (script : List (Byte × List Byte)) :
    (s.sendScript script).readback = s.readback :=
  sendScript_keeps sendCommand_readback s script
@[simp] theorem sendScript_rst (s : State) (script : List (Byte × List Byte)) :
    (s.sendScript script).lines.rst = s.lines.rst :=
  sendScript_keeps (f := fun s => s.lines.rst) sendCommand_rst s script

@[simp] theorem sendScript_trace (s : State) (script : List (Byte × List Byte)) :
    (s.sendScript script).trace = s.trace ++ script.flatMap (fun e => commandEvents e.1 e.2) := by
  induction script generalizing s with
  | nil => exact (List.append_nil _).symm
  | cons e script ih =>
    refine (ih (s.sendCommand e.1 e.2)).trans ?_
    rw [sendCommand_trace, List.flatMap_cons, List.append_assoc]

@[simp] theorem sendScript_txbuf (s : State) (script : List (Byte × List Byte)) :
    (s.sendScript script).txbuf = scriptTxbuf script s.txbuf := by
  induction script generalizing s with
  | nil => rfl
  | cons e script ih =>
    refine (ih (s.sendCommand e.1 e.2)).trans ?_
    rw [sendCommand_txbuf, scriptTxbuf, scriptTxbuf, List.foldl_cons]
    congr 1
    split <;> simp_all

@[simp] theorem sendScript_txlen (s : State) (script : List (Byte × List Byte)) :
    (s.sendScript script).txlen = scriptTxlen script s.txlen := by
  induction script generalizing s with
  | nil => rfl
  | cons e script ih =>
    refine (ih (s.sendCommand e.1 e.2)).trans ?_
    simp [scriptTxlen]

/-! The whole of INIT (R121). -/

/-- The state after the reset pulse: RST ends at 1, and each of its three levels is held for a delay (R122; log 12). -/
def State.pulse (s : State) (p : Params) : State :=
  { s with
    lines := { s.lines with rst := true }
    tmr := p.tRstMs
    trace := s.trace ++ [.rst true, .delay p.tRstMs, .rst false, .delay p.tRstMs, .rst true, .delay p.tRstMs] }

theorem afterOps_resetPulse (s : State) (p : Params) : s.afterOps (resetPulse p) = s.pulse p := by
  simp [resetPulse, State.afterOp, State.setRst, State.loadTimer, State.emit, State.pulse]

/-- The state after INIT's expansion: the pulse, sleep-out, its delay, the script and display-on (R121). -/
theorem afterOps_expandInit (s : State) (p : Params) :
    s.afterOps (expandInit p) =
      (((((s.pulse p).sendCommand p.cmdSlpout []).loadTimer p.tSlpoutMs).emit
        (.delay p.tSlpoutMs)).sendScript p.initScript).sendCommand p.cmdDispon [] := by
  simp only [expandInit, afterOps_append, afterOps_resetPulse, afterOps_wregOps, afterOps_scriptOps]
  rfl

theorem afterOps_expandInit_trace (s : State) (p : Params) :
    (s.afterOps (expandInit p)).trace = s.trace ++ initEvents p := by
  simp [afterOps_expandInit, State.pulse, initEvents]

theorem scriptOps_length (script : List (Byte × List Byte)) :
    (scriptOps script).length = (script.map fun e => commandLength e.2.length).sum := by
  simp [scriptOps, List.length_flatMap, wregOps_length]

theorem expandInit_length (p : Params) : (expandInit p).length = initLength p := by
  simp [expandInit, resetPulse, wregOps_length, scriptOps_length, initLength, commandLength]
  omega

/-- The state after INIT has run to its end, with no act left. -/
def State.afterInit (s : State) : State :=
  ((((s.withInputs []).startSeq.accept s.lat.loadInit (expandInit s.cfg.params)).afterOps
    (expandInit s.cfg.params)).retire [])

theorem steps_init {s : State} (hin : s.inputs = [.issue .init]) (hb : s.busy = false) (hp : s.phase = .cold) :
    steps (1 + initLength s.cfg.params) s = .next s.afterInit := by
  have h := steps_issue hin (.inl rfl) rfl rfl hb (.init (s := s.withInputs []) hp)
  rwa [accept_uq, withInputs_cfg, expandInit_length] at h

theorem afterInit_finished (s : State) : Finished s s.afterInit := by
  constructor <;> simp [State.afterInit, afterOps_expandInit, State.pulse]

/-- Settles O18: `steps_init`, and the state after it field by field. -/
theorem initRunsToEnd : Obligations.InitRunsToEnd := by
  intro s hb hp hin
  refine ⟨_, steps_init hin hb hp, afterInit_finished s, ?_, ?_, ?_, ?_, ?_, ?_, ?_, ?_, ?_, ?_, ?_⟩
  · simp [State.afterInit, afterOps_expandInit_trace]
  all_goals simp [State.afterInit, afterOps_expandInit, State.pulse, Phase.settle, Latches.loadInit]

/-! The length of INIT's expansion (R129). -/

theorem countP_isFill_busCall_map {α : Type} {f : α → MicroOp} (hf : ∀ a, (f a).isFill = false) (d : Bool) (l : List α) :
    (busCall d (l.map f)).countP MicroOp.isFill = 0 := by
  have hl : (l.map f).countP MicroOp.isFill = 0 := by simp [List.countP_eq_zero, hf]
  rw [busCall, List.countP_append, List.countP_append, hl]
  rfl

/-- A register command fills TXBUF once if it has parameters (R111). -/
theorem countP_isFill_wregOps (opc : Byte) (bs : List Byte) :
    (wregOps opc bs).countP MicroOp.isFill = if bs = [] then 0 else 1 := by
  have himm : (callImm false [opc]).countP MicroOp.isFill = 0 := countP_isFill_busCall_map (f := .imm) (fun _ => rfl) _ _
  have htx (n : Nat) : (callTx n).countP MicroOp.isFill = 0 := countP_isFill_busCall_map (f := .tx) (fun _ => rfl) _ _
  cases bs with
  | nil => simp [wregOps, himm]
  | cons b bs => simp [wregOps, himm, htx, List.countP_cons, MicroOp.isFill]

theorem countP_isFill_scriptOps (script : List (Byte × List Byte)) :
    (scriptOps script).countP MicroOp.isFill = (script.filter fun e => decide (e.2 ≠ [])).length := by
  induction script with
  | nil => rfl
  | cons e script ih =>
    rw [scriptOps_cons, List.countP_append, countP_isFill_wregOps, ih]
    by_cases he : e.2 = []
    · simp [he]
    · simp [he, Nat.add_comm]

theorem countP_isFill_expandInit (p : Params) :
    (expandInit p).countP MicroOp.isFill = (p.initScript.filter fun e => decide (e.2 ≠ [])).length := by
  have hpulse : (resetPulse p).countP MicroOp.isFill = 0 := rfl
  simp [expandInit, hpulse, countP_isFill_wregOps, countP_isFill_scriptOps, MicroOp.isFill]

/-- Every micro-operation but uFILL emits one event (R33, R129). -/
theorem futureEvents_length (m : Memory) (base : Nat) (tx : List Byte) (us : List MicroOp) :
    (futureEvents m base tx us).length + us.countP MicroOp.isFill = us.length := by
  induction us generalizing tx with
  | nil => rfl
  | cons u us ih =>
    cases u with
    | fill bs =>
      have hrest := ih (bs ++ tx.drop bs.length)
      simp only [futureEvents, List.countP_cons, List.length_cons, MicroOp.isFill, if_true]
      omega
    | _ =>
      have hrest := ih tx
      simp only [futureEvents, List.countP_cons, List.length_cons, MicroOp.isFill, Bool.false_eq_true, if_false]
      omega

/-- What a list of micro-operations adds to TRACE is what `futureEvents` foretells (R33, R60). -/
theorem afterOps_trace (s : State) (us : List MicroOp) :
    (s.afterOps us).trace = s.trace ++ futureEvents s.mem s.lat.buf.toNat s.txbuf us := by
  induction us generalizing s with
  | nil => exact (List.append_nil _).symm
  | cons u us ih =>
    rw [afterOps_cons, ih]
    cases u <;> simp [State.afterOp, futureEvents, State.shiftOut]

/-- INIT's expansion is going to emit the event trace of R121, whatever the state. -/
theorem futureEvents_expandInit (s : State) (p : Params) :
    futureEvents s.mem s.lat.buf.toNat s.txbuf (expandInit p) = initEvents p :=
  List.append_cancel_left ((afterOps_trace s _).symm.trans (afterOps_expandInit_trace s p))

/-- Settles O50: the parts of the expansion, and every micro-operation but uFILL emits one event of R121's trace. -/
theorem initExpansionLength : Obligations.InitExpansionLength := by
  intro p
  refine ⟨?_, ?_, countP_isFill_expandInit p⟩
  · rw [expandInit_length, initLength]
    simp only [commandLength]
    omega
  · rw [← futureEvents_expandInit State.reset, ← countP_isFill_expandInit]
    exact futureEvents_length _ _ _ _

end Sys2Proof.Machine
end

section
/-! Proofs, layer 14: the start-up sequence, kept by each thing a step can do (R127, R128). -/

namespace Sys2Proof.Machine

/-! What is still to come. -/

/-- Performing the head of a list of micro-operations moves its event from what is still to come to TRACE. -/
theorem futureEvents_cons_of_perform {u : MicroOp} {s m : State} (h : perform u s = .next m) (us : List MicroOp) :
    futureEvents s.mem s.lat.buf.toNat s.txbuf (u :: us) =
      opEvents u s ++ futureEvents m.mem m.lat.buf.toNat m.txbuf us := by
  cases perform_eq_next_iff.1 h <;> rfl

/-- Without uSRC host memory has no part in what is still to come (R58). -/
theorem futureEvents_eq_of_not_isSrc {us : List MicroOp} (h : ∀ u ∈ us, u.isSrc = false) (m m' : Memory) (base : Nat)
    (tx : List Byte) : futureEvents m base tx us = futureEvents m' base tx us := by
  induction us generalizing tx with
  | nil => rfl
  | cons u us ih =>
    have hu := h u (by simp)
    have hus := ih fun v hv => h v (by simp [hv])
    cases u with
    | src i => cases hu
    | _ => simp [futureEvents, hus]

/-! The kinds of micro-operations and of the events they emit. -/

theorem isSequencer_of_isBus {u : MicroOp} (h : u.isBus = true) : u.isSequencer = false := by
  cases u with
  | rst b | delay ms => cases h
  | _ => rfl

theorem isPwm_of_mem_expandInit {p : Params} {u : MicroOp} (h : u ∈ expandInit p) : u.isPwm = false := by
  have hkind := isBus_or_isSequencer_of_mem_expandInit h
  cases u with
  | pwm v => simp [MicroOp.isBus, MicroOp.isSequencer] at hkind
  | _ => rfl

theorem isSrc_of_mem_expandInit {p : Params} {u : MicroOp} (h : u ∈ expandInit p) : u.isSrc = false := by
  have hindex := List.filterMap_eq_nil_iff.1 (srcIndices_expandInit p) u h
  cases u with
  | src i => cases hindex
  | _ => rfl

/-- uPWM emits a PWM event, and nothing else does. -/
theorem filter_notPwm_opEvents (u : MicroOp) (s : State) :
    (opEvents u s).filter Event.notPwm = if u.isPwm then [] else opEvents u s := by
  cases u <;> rfl

/-- RST and DELAY events come from uRST and uDELAY alone (R127). -/
theorem isSequencer_of_mem_opEvents {u : MicroOp} {s : State} {e : Event} (h : e ∈ opEvents u s) :
    e.isSequencer = u.isSequencer := by
  cases u <;> simp_all [opEvents, futureEvents, Event.isSequencer, MicroOp.isSequencer]

/-! The invariant, PHASE by PHASE. -/

theorem sequencerInv_of_cold {s : State} (hp : s.phase = .cold) :
    s.SequencerInv ↔ s.trace.filter Event.notPwm = [] ∧ ∀ u ∈ s.uq, u.isPwm = true := by
  simp [State.SequencerInv, hp]

theorem sequencerInv_of_seq {s : State} (hp : s.phase = .seq) :
    s.SequencerInv ↔
      s.trace.filter Event.notPwm ++ futureEvents s.mem s.lat.buf.toNat s.txbuf s.uq = initEvents s.cfg.params ∧
        ∀ u ∈ s.uq, u.isPwm = false ∧ u.isSrc = false := by
  simp [State.SequencerInv, hp]

theorem sequencerInv_of_ready {s : State} (hp : s.phase = .ready) :
    s.SequencerInv ↔
      ∃ later, s.trace.filter Event.notPwm = initEvents s.cfg.params ++ later ∧
        (∀ e ∈ later, e.isSequencer = false) ∧ ∀ u ∈ s.uq, u.isSequencer = false := by
  simp [State.SequencerInv, hp]

/-! The acts of the outside world. -/

theorem State.SequencerInv.pwmTick {s : State} (h : s.SequencerInv) : s.pwmTick.SequencerInv := by
  unfold State.pwmTick
  split
  · exact h
  · exact h

/-- What INIT is still to send does not come from host memory. -/
theorem State.SequencerInv.hostStore {s : State} (h : s.SequencerInv) (a : Word) (v : Byte) :
    (s.hostStore a v).SequencerInv := by
  cases hp : s.phase with
  | cold => exact (sequencerInv_of_cold (s := s.hostStore a v) hp).2 ((sequencerInv_of_cold hp).1 h)
  | seq =>
    obtain ⟨hevents, huq⟩ := (sequencerInv_of_seq hp).1 h
    refine (sequencerInv_of_seq (s := s.hostStore a v) hp).2 ⟨?_, huq⟩
    rw [hostStore_uq, futureEvents_eq_of_not_isSrc (fun u hu => (huq u hu).2) _ s.mem]
    exact hevents
  | ready => exact (sequencerInv_of_ready (s := s.hostStore a v) hp).2 ((sequencerInv_of_ready hp).1 h)

/-- A hardware reset establishes the invariant whatever ran before it: nothing has been driven yet (R44). -/
theorem hardReset_sequencerInv (s : State) (u : ResetLevels) : (s.hardReset u).SequencerInv := ⟨rfl, rfl⟩

/-! Submissions. -/

/-- INIT's acceptance: all of R121's trace is still to come. -/
theorem State.SequencerInv.accept_init {s : State} (h : s.SequencerInv) (hp : s.phase = .cold) :
    (s.startSeq.accept s.lat.loadInit (expandInit s.cfg.params)).SequencerInv := by
  obtain ⟨htrace, -⟩ := (sequencerInv_of_cold hp).1 h
  refine (sequencerInv_of_seq rfl).2 ⟨?_, fun u hu => ⟨isPwm_of_mem_expandInit hu, isSrc_of_mem_expandInit hu⟩⟩
  simp only [accept_trace, startSeq_trace, htrace, List.nil_append]
  exact futureEvents_expandInit (s.startSeq.accept s.lat.loadInit (expandInit s.cfg.params)) _

/-- Once READY an operation without uRST and uDELAY may be accepted. -/
theorem State.SequencerInv.accept_ready {s : State} (h : s.SequencerInv) (hp : s.phase = .ready) (lat : Latches)
    {uq : List MicroOp} (huq : ∀ u ∈ uq, u.isSequencer = false) : (s.accept lat uq).SequencerInv := by
  obtain ⟨later, htrace, hlater, -⟩ := (sequencerInv_of_ready hp).1 h
  exact (sequencerInv_of_ready (s := s.accept lat uq) hp).2 ⟨later, htrace, hlater, huq⟩

/-- SETBL may be accepted before INIT too (R163). -/
theorem State.SequencerInv.accept_setbl {s : State} (h : s.SequencerInv) (hp : s.phase ≠ .seq) (lat : Latches)
    (level : Half) : (s.accept lat (expandSetbl level)).SequencerInv := by
  cases hphase : s.phase with
  | cold =>
    obtain ⟨htrace, -⟩ := (sequencerInv_of_cold hphase).1 h
    exact (sequencerInv_of_cold (s := s.accept lat (expandSetbl level)) hphase).2
      ⟨htrace, List.forall_mem_singleton.2 rfl⟩
  | seq => exact absurd hphase hp
  | ready => exact h.accept_ready hphase lat (List.forall_mem_singleton.2 rfl)

theorem isSequencer_of_mem_expandFlush {p : Params} {x1 y1 x2 y2 : Half} {len : Word} {u : MicroOp}
    (h : u ∈ expandFlush p x1 y1 x2 y2 len) : u.isSequencer = false := by
  obtain h | rfl := isBus_or_done_of_mem_expandFlush h
  · exact isSequencer_of_isBus h
  · rfl

theorem State.SequencerInv.accepts {s t : State} {i : Instr} (h : s.SequencerInv) (hp : s.phase ≠ .seq)
    (ha : Accepts s i t) : t.SequencerInv := by
  cases ha with
  | xfer d buf len ready fits =>
    exact h.accept_ready ready _ fun u hu => isSequencer_of_isBus (isBus_of_mem_expandXfer hu)
  | wreg opc ps ready fits =>
    exact h.accept_ready ready _ fun u hu => isSequencer_of_isBus (isBus_of_mem_expandWreg hu)
  | init cold => exact h.accept_init cold
  | flush x1 y1 x2 y2 buf len ready rect size fits =>
    exact State.SequencerInv.accept_ready (s := s.clearDone) h ready _ fun u hu => isSequencer_of_mem_expandFlush hu
  | setbl level fits => exact h.accept_setbl hp _ level

/-! The engine. -/

/-- The end of an operation moves PHASE only from SEQ (R28, R35). -/
theorem retire_phase_of_ne_seq {s : State} (hp : s.phase ≠ .seq) (rest : List MicroOp) :
    (s.retire rest).phase = s.phase := by
  cases rest with
  | nil => rw [retire_nil_phase, settle_eq, if_neg hp]
  | cons u us => rfl

/-- Performing the head of UQ and taking it off keeps the invariant, also when it was the last one. -/
theorem State.SequencerInv.retire {s m : State} {u : MicroOp} {rest : List MicroOp} (h : s.SequencerInv)
    (hq : s.uq = u :: rest) (hm : perform u s = .next m) : (m.retire rest).SequencerInv := by
  have hperf := perform_next hm
  have htrace : m.trace.filter Event.notPwm =
      s.trace.filter Event.notPwm ++ if u.isPwm then [] else opEvents u s := by
    rw [hperf.trace, List.filter_append, filter_notPwm_opEvents]
  have hkeep (hne : s.phase ≠ .seq) : (m.retire rest).phase = s.phase :=
    (retire_phase_of_ne_seq (hperf.phase.symm ▸ hne) rest).trans hperf.phase
  cases hp : s.phase with
  | cold =>
    obtain ⟨hnone, huq⟩ := (sequencerInv_of_cold hp).1 h
    rw [hq, List.forall_mem_cons] at huq
    obtain ⟨hu, hrest⟩ := huq
    refine (sequencerInv_of_cold ((hkeep (by simp [hp])).trans hp)).2 ⟨?_, by rwa [retire_uq]⟩
    rw [retire_trace, htrace, hnone, if_pos hu, List.append_nil]
  | seq =>
    obtain ⟨hevents, huq⟩ := (sequencerInv_of_seq hp).1 h
    rw [hq, List.forall_mem_cons] at huq
    obtain ⟨⟨hu, -⟩, hrest⟩ := huq
    have hnext : m.trace.filter Event.notPwm ++ futureEvents m.mem m.lat.buf.toNat m.txbuf rest =
        initEvents m.cfg.params := by
      rw [htrace, hu, if_neg Bool.false_ne_true, List.append_assoc, ← futureEvents_cons_of_perform hm, ← hq, hevents,
        hperf.cfg]
    have hphase : m.phase = .seq := hperf.phase.trans hp
    cases rest with
    | nil =>
      refine (sequencerInv_of_ready (s := m.retire []) (by simp [hphase, Phase.settle])).2 ⟨[], ?_, nofun, nofun⟩
      simpa [futureEvents] using hnext
    | cons v vs => exact (sequencerInv_of_seq (s := m.retire (v :: vs)) hphase).2 ⟨hnext, hrest⟩
  | ready =>
    obtain ⟨later, hfirst, hlater, huq⟩ := (sequencerInv_of_ready hp).1 h
    rw [hq, List.forall_mem_cons] at huq
    obtain ⟨hu, hrest⟩ := huq
    refine (sequencerInv_of_ready ((hkeep (by simp [hp])).trans hp)).2
      ⟨later ++ if u.isPwm then [] else opEvents u s, ?_, fun e he => ?_, by rwa [retire_uq]⟩
    · rw [retire_trace, htrace, hfirst, retire_cfg, hperf.cfg, List.append_assoc]
    · obtain he | he := List.mem_append.1 he
      · exact hlater e he
      · split at he
        · cases he
        · rw [isSequencer_of_mem_opEvents he, hu]

/-! One step. -/

/-- Settles O39, by cases over what a step can do; while INIT runs the port takes no submission. -/
theorem stepKeepsSequencerInvariant : Obligations.StepKeepsSequencerInvariant := by
  intro s t hinv h hs
  cases step_effect hs with
  | performs u rest m l hq hm ht => exact ht ▸ State.SequencerInv.retire (s := s.withInputs l) h hq hm
  | accepts i l hb ha =>
    have hp : s.phase ≠ .seq := fun hseq => by simp [hinv.seq_busy hseq] at hb
    exact State.SequencerInv.accepts (s := s.withInputs l) h hp ha
  | store a v l ht => exact ht ▸ h.hostStore a v
  | pwmTick l hin ht => exact ht ▸ h.pwmTick
  | reset u l hin ht => exact ht ▸ hardReset_sequencerInv s u
  | nothing l ht | rejects c l hb ht | read r l ht | pwmStart l hin ht =>
    subst ht
    exact h

/-! The order of the start-up (R122, R127). -/

theorem isSequencer_of_mem_callEvents {d : Bool} {bs : List Byte} {e : Event} (h : e ∈ callEvents d bs) :
    e.isSequencer = false := by
  simp only [callEvents, List.mem_append, List.mem_cons, List.not_mem_nil, or_false, List.mem_map] at h
  obtain ((rfl | rfl) | ⟨v, -, rfl⟩) | rfl := h <;> rfl

theorem isSequencer_of_mem_commandEvents {opc : Byte} {bs : List Byte} {e : Event} (h : e ∈ commandEvents opc bs) :
    e.isSequencer = false := by
  obtain h | h := List.mem_append.1 h
  · exact isSequencer_of_mem_callEvents h
  · split at h
    · cases h
    · exact isSequencer_of_mem_callEvents h

/-- The pulse, sleep-out and its delay stand first in INIT's trace, and no RST or DELAY event follows them in it. -/
theorem exists_initEvents_eq (p : Params) :
    ∃ rest, initEvents p = [.rst true, .delay p.tRstMs, .rst false, .delay p.tRstMs, .rst true, .delay p.tRstMs,
        .cs false, .dc false, .byte p.cmdSlpout, .cs true, .delay p.tSlpoutMs] ++ rest ∧
      ∀ e ∈ rest, e.isSequencer = false := by
  refine ⟨p.initScript.flatMap (fun e => commandEvents e.1 e.2) ++ commandEvents p.cmdDispon [],
    by simp [initEvents, commandEvents, callEvents], fun e he => ?_⟩
  obtain he | he := List.mem_append.1 he
  · obtain ⟨c, -, he⟩ := List.mem_flatMap.1 he
    exact isSequencer_of_mem_commandEvents he
  · exact isSequencer_of_mem_commandEvents he

/-- Settles O40: the invariant puts INIT's trace first, and `exists_initEvents_eq` says how that begins. -/
theorem startUpOrder : Obligations.StartUpOrder := by
  intro s h hp
  obtain ⟨later, htrace, hlater, -⟩ := (sequencerInv_of_ready hp).1 h
  obtain ⟨rest, hinit, hrest⟩ := exists_initEvents_eq s.cfg.params
  obtain ⟨-, -, -, -, -, -, -, hrst, hslpout⟩ := params_ok_iff.1 s.cfg.ok
  have hnone : ∀ e ∈ rest ++ later, e.isSequencer = false := List.forall_mem_append.2 ⟨hrest, hlater⟩
  refine ⟨hrst, hslpout, rest ++ later, by rw [htrace, hinit, List.append_assoc], fun b hb => ?_, fun ms hms => ?_⟩
  · cases hnone _ hb
  · cases hnone _ hms

end Sys2Proof.Machine
end

section
/-! Proofs, layer 15: FLUSH, from its checks to the calls it adds to TRACE (R137, R138, R140 to R148). -/

namespace Sys2Proof.Machine

/-! The acceptance and the rejections (R140, R141, R142). -/

/-- Settles O14: the checks pass, and the acceptance is FLUSH's. -/
theorem flushAccepted : Obligations.FlushAccepted := by
  intro x1 y1 x2 y2 buf len s hb hp hfits
  obtain ⟨hrect, hsize, hbuf⟩ := hfits
  exact exec_of_accepts rfl hb (.flush x1 y1 x2 y2 buf len hp (rectOk_true.2 hrect) hsize hbuf)

theorem exec_flush_raise {s : State} {x1 y1 x2 y2 : Half} {buf len : Word} {c : Cause} (hb : s.busy = false)
    (hc : checkFlush s x1 y1 x2 y2 (rectBytes s.cfg.params x1 y1 x2 y2) buf len = some c) :
    exec (.flush x1 y1 x2 y2 buf len) s = .next (s.raise c) := by
  rw [exec, execFlush, hc, submit_some hb]

theorem rectOk_false {p : Params} {x1 y1 x2 y2 : Half} (h : ¬ validRect p x1 y1 x2 y2) :
    rectOk p x1 y1 x2 y2 = false :=
  Bool.eq_false_iff.2 (mt rectOk_true.1 h)

section
variable {s : State} {x1 y1 x2 y2 : Half} {size : Nat} {buf len : Word}

theorem checkFlush_notReady (hp : s.phase ≠ .ready) :
    checkFlush s x1 y1 x2 y2 size buf len = some .notReady := if_pos hp

theorem checkFlush_badRect (hp : s.phase = .ready) (hrect : ¬ validRect s.cfg.params x1 y1 x2 y2) :
    checkFlush s x1 y1 x2 y2 size buf len = some .badRect := by
  simp [checkFlush, hp, rectOk_false hrect]

theorem checkFlush_lengthMismatch (hp : s.phase = .ready) (hrect : validRect s.cfg.params x1 y1 x2 y2)
    (hsize : len.toNat ≠ size) : checkFlush s x1 y1 x2 y2 size buf len = some .lengthMismatch := by
  simp [checkFlush, hp, rectOk_true.2 hrect, hsize]

theorem checkFlush_bufRange (hp : s.phase = .ready) (hrect : validRect s.cfg.params x1 y1 x2 y2)
    (hsize : len.toNat = size) (hbuf : 4294967296 < buf.toNat + len.toNat) :
    checkFlush s x1 y1 x2 y2 size buf len = some .bufRange := by
  have hover : bufOverruns buf len = true := decide_eq_true hbuf
  simp [checkFlush, hp, rectOk_true.2 hrect, hsize, hover]

end

/-- Settles O27: the first check that fails names the cause, one clause to each. -/
theorem flushRejections : Obligations.FlushRejections := by
  intro x1 y1 x2 y2 buf len s hb
  refine ⟨fun hp => ?_, fun hp hrect => ?_, fun hp hrect hsize => ?_, fun hp hrect hsize hbuf => ?_⟩
  · exact exec_flush_raise hb (checkFlush_notReady hp)
  · exact exec_flush_raise hb (checkFlush_badRect hp hrect)
  · exact exec_flush_raise hb (checkFlush_lengthMismatch hp hrect hsize)
  · exact exec_flush_raise hb (checkFlush_bufRange hp hrect hsize hbuf)

/-! The window's bytes (R137, R138). -/

theorem hi8_toNat (v : Half) : (hi8 v).toNat = v.toNat / 256 := by
  rw [hi8, BitVec.extractLsb'_toNat, Nat.shiftRight_eq_div_pow]
  omega

theorem lo8_toNat (v : Half) : (lo8 v).toNat = v.toNat % 256 := by
  rw [lo8, BitVec.extractLsb'_toNat, Nat.shiftRight_zero]

theorem windowBytes_toNat (a b : Half) : (windowBytes a b).map BitVec.toNat =
    [a.toNat / 256, a.toNat % 256, b.toNat / 256, b.toNat % 256] := by
  simp [windowBytes, be16, hi8_toNat, lo8_toNat]

/-- Where `Y + Y_OFFSET` fits 16 bits the sum is exact (R137). -/
theorem offsetRow_toNat {p : Params} {y : Half} (h : y.toNat + p.yOffset ≤ 65535) :
    (offsetRow p y).toNat = y.toNat + p.yOffset := by
  simp only [offsetRow, BitVec.toNat_add, BitVec.toNat_ofNat]
  omega

/-- `VRES + Y_OFFSET <= 65536` (R8): no row of the panel overflows with the offset (R137). -/
theorem row_add_yOffset_le (c : Config) {y : Nat} (hy : y < c.params.vres) : y + c.params.yOffset ≤ 65535 := by
  obtain ⟨-, -, -, -, -, hrows, -⟩ := params_ok_iff.1 c.ok
  omega

theorem expandFlush_getElem?_cols (p : Params) (x1 y1 x2 y2 : Half) (len : Word) :
    (expandFlush p x1 y1 x2 y2 len)[4]? = some (.fill (windowBytes x1 x2)) := rfl

theorem expandFlush_getElem?_rows (p : Params) (x1 y1 x2 y2 : Half) (len : Word) :
    (expandFlush p x1 y1 x2 y2 len)[16]? = some (.fill (windowBytes (offsetRow p y1) (offsetRow p y2))) := rfl

/-- Settles O48: an accepted FLUSH has a valid rectangle, whose rows do not overflow with the offset. -/
theorem windowBytesAreBigEndian : Obligations.WindowBytesAreBigEndian := by
  intro x1 y1 x2 y2 buf len s t h hbusy
  cases accepts_of_exec_busy h hbusy with
  | flush _ _ _ _ _ _ ready rect size fits =>
    obtain ⟨-, -, hrows, hlast⟩ := rectOk_true.1 rect
    have hy2 := row_add_yOffset_le s.cfg hlast
    refine ⟨_, _, expandFlush_getElem?_cols _ x1 y1 x2 y2 len, expandFlush_getElem?_rows _ x1 y1 x2 y2 len,
      windowBytes_toNat x1 x2, ?_, hy2⟩
    rw [windowBytes_toNat, offsetRow_toNat (y := y1) (by omega), offsetRow_toNat hy2]

/-! The whole run (R140, R146). -/

section
variable (s : State) (x1 y1 x2 y2 : Half) (buf len : Word) (l : List Input)

@[simp] theorem afterFlush_cfg : (s.afterFlush x1 y1 x2 y2 buf len l).cfg = s.cfg := by
  simp [State.afterFlush, State.sendCall]
@[simp] theorem afterFlush_mem : (s.afterFlush x1 y1 x2 y2 buf len l).mem = s.mem := by
  simp [State.afterFlush, State.sendCall]
@[simp] theorem afterFlush_inputs : (s.afterFlush x1 y1 x2 y2 buf len l).inputs = l := by
  simp [State.afterFlush, State.sendCall]
@[simp] theorem afterFlush_busy : (s.afterFlush x1 y1 x2 y2 buf len l).busy = false := by
  simp [State.afterFlush, State.sendCall]

theorem afterFlush_finished : Finished s (s.afterFlush x1 y1 x2 y2 buf len []) := by
  constructor <;> simp [State.afterFlush, State.sendCall]

end

theorem afterFlush_phase {s : State} (hp : s.phase = .ready) (x1 y1 x2 y2 : Half) (buf len : Word) (l : List Input) :
    (s.afterFlush x1 y1 x2 y2 buf len l).phase = .ready := by
  simp [State.afterFlush, State.sendCall, hp, Phase.settle]

@[simp] theorem linesAfter_rst (s : State) (vs : List Byte) : (s.linesAfter vs).rst = s.lines.rst := rfl

/-- TXBUF holds the row command's bytes, which overwrite the column command's (R37, R111). -/
theorem afterFlush_txbuf (s : State) (x1 y1 x2 y2 : Half) (buf len : Word) (l : List Input) :
    (s.afterFlush x1 y1 x2 y2 buf len l).txbuf =
      windowBytes (offsetRow s.cfg.params y1) (offsetRow s.cfg.params y2) ++ s.txbuf.drop 4 := by
  have hdrop (a b : Half) (tx : List Byte) : (windowBytes a b ++ tx).drop 4 = tx := rfl
  have hlength (a b : Half) : (windowBytes a b).length = 4 := rfl
  simp [State.afterFlush, State.sendCall, hdrop, hlength]

/-- Settles O19: `steps_flush`, and the state after it field by field. -/
theorem flushRunsToEnd : Obligations.FlushRunsToEnd := by
  intro x1 y1 x2 y2 buf len s hb hp hfits hin
  refine ⟨_, steps_flush hin (.inl rfl) hb hp hfits, afterFlush_finished s x1 y1 x2 y2 buf len,
    afterFlush_trace s x1 y1 x2 y2 buf len [], rfl, rfl, rfl, ?_, ?_, afterFlush_txbuf s x1 y1 x2 y2 buf len [], rfl,
    ?_, ?_, afterFlush_phase hp x1 y1 x2 y2 buf len []⟩
  all_goals simp [State.afterFlush, State.sendCall, Latches.loadFlush]

/-- Settles O23: the first run leaves what the events depend on, the parameters and host memory, as it was. -/
theorem flushIsIdempotent : Obligations.FlushIsIdempotent := by
  intro x1 y1 x2 y2 buf len s hb hp hfits
  refine ⟨_, _, _, steps_flush rfl (waits_issue _ _) hb hp hfits, afterFlush_busy .., afterFlush_trace ..,
    steps_flush (afterFlush_inputs ..) (.inl rfl) (afterFlush_busy ..) (afterFlush_phase hp ..) hfits,
    afterFlush_busy .., ?_⟩
  simp only [afterFlush_trace, afterFlush_cfg, afterFlush_mem]

/-! The calls of a FLUSH (R144, R145). -/

theorem calls_commandEvents_append (opc : Byte) (bs : List Byte) (t : List Event) :
    calls (commandEvents opc bs ++ t) = commandCalls opc bs ++ calls t := by
  unfold commandEvents commandCalls
  split
  · exact calls_callEvents_append false [opc] t
  · rw [List.append_assoc, calls_callEvents_append, calls_callEvents_append, List.cons_append, List.singleton_append]

/-- Two commands with parameters, one without, the pixel call and DONE. -/
theorem calls_flushEvents (p : Params) (x1 y1 x2 y2 : Half) (px : List Byte) :
    calls (flushEvents p x1 y1 x2 y2 px) =
      [.call false [p.cmdCaset], .call true (windowBytes x1 x2), .call false [p.cmdRaset],
       .call true (windowBytes (offsetRow p y1) (offsetRow p y2)), .call false [p.cmdRamwr], .call true px,
       .event .done] := by
  have hdone : calls [.done] = [.event .done] := calls_cons_of_between rfl []
  simp only [flushEvents, List.append_assoc, calls_commandEvents_append, calls_callEvents_append, hdone]
  rfl

/-- Settles O55: TRACE so far is whole calls, and the FLUSH adds its own. -/
theorem flushAddsSixCalls : Obligations.FlushAddsSixCalls := by
  intro x1 y1 x2 y2 buf len s hinv hb hp hfits hin
  refine ⟨_, steps_flush hin (.inl rfl) hb hp hfits, rfl, ?_⟩
  rw [afterFlush_trace, calls_append (wholeCalls_of_wireAfter (hinv.wire_idle hb).1), calls_flushEvents]

end Sys2Proof.Machine
end

section
/-! Proofs, layer 16: SETBL from its check to its comparator write, and the backlight over one counter period (R156 to
R163). -/

namespace Sys2Proof.Machine

/-! The acceptance and the rejection (R156, R158, R163). -/

/-- Settles O15: the check passes in every PHASE, and the acceptance is SETBL's. -/
theorem setblAccepted : Obligations.SetblAccepted := by
  intro level s hb hlevel
  exact exec_of_accepts rfl hb (.setbl level hlevel)

theorem checkSetbl_some {level : Half} (h : 255 < level.toNat) : checkSetbl level = some .levelRange := if_pos h

/-- Settles O28: the check fails, and `raise` sets bit 7. -/
theorem setblRejection : Obligations.SetblRejection := by
  intro level s hb hlevel
  rw [exec, execSetbl, checkSetbl_some hlevel, submit_some hb]
  rfl

/-! From the submission to the end (R156, R157, R162). -/

/-- The square of an 8-bit level fits the comparator (R157). -/
theorem duty_toNat {level : Half} (h : level.toNat ≤ 255) : (duty level).toNat = level.toNat * level.toNat := by
  have hsquare : level.toNat * level.toNat ≤ 255 * 255 := Nat.mul_le_mul h h
  rw [duty, BitVec.toNat_ofNat]
  exact Nat.mod_eq_of_lt (by omega)

/-- The state after a SETBL has run to its end, with no act left. -/
def State.afterSetbl (s : State) (level : Half) : State :=
  ((((s.withInputs []).accept (s.lat.loadSetbl level) (expandSetbl level)).writePwm (duty level)).emit
    (.pwm (duty level))).retire []

theorem steps_setbl {s : State} {level : Half} (hin : s.inputs = [.issue (.setbl level)]) (hb : s.busy = false)
    (hlevel : level.toNat ≤ 255) : steps 2 s = .next (s.afterSetbl level) :=
  steps_issue hin (.inl rfl) rfl rfl hb (.setbl (s := s.withInputs []) level hlevel)

theorem afterSetbl_cmp_toNat {level : Half} (h : level.toNat ≤ 255) (s : State) :
    (s.afterSetbl level).pwm.cmp.toNat = level.toNat * level.toNat := duty_toNat h

theorem afterSetbl_finished (s : State) (level : Half) : Finished s (s.afterSetbl level) := by
  constructor <;> simp [State.afterSetbl]

theorem afterSetbl_phase {s : State} (hp : s.phase ≠ .seq) (level : Half) :
    (s.afterSetbl level).phase = s.phase := by
  simp [State.afterSetbl, settle_eq, hp]

/-- Settles O20: `steps_setbl`, and the state after it field by field. -/
theorem setblRunsToEnd : Obligations.SetblRunsToEnd := by
  intro level s hb hp hlevel hin
  exact ⟨_, duty level, steps_setbl hin hb hlevel, afterSetbl_finished s level, duty_toNat hlevel, rfl, rfl, rfl, rfl,
    rfl, rfl, rfl, rfl, rfl, rfl, afterSetbl_phase hp level⟩

/-- Settles O49: both runs leave the square, and squaring is strictly monotone. -/
theorem squaringLaw : Obligations.SquaringLaw := by
  intro a b s hab hb255 hb
  have ha255 : a.toNat ≤ 255 := by omega
  refine ⟨_, _, steps_setbl rfl hb ha255, steps_setbl rfl hb hb255, afterSetbl_cmp_toNat ha255 _,
    afterSetbl_cmp_toNat hb255 _, ?_, ?_⟩
  · rw [afterSetbl_cmp_toNat hb255]
    exact Nat.mul_le_mul hb255 hb255
  · rw [afterSetbl_cmp_toNat ha255, afterSetbl_cmp_toNat hb255]
    exact Nat.mul_self_lt_mul_self hab

/-! One counter period (R39, R160). -/

theorem pwmTicks_succ_last (n : Nat) (s : State) : pwmTicks (n + 1) s = (pwmTicks n s).pwmTick := by
  induction n generalizing s with
  | zero => rfl
  | succ n ih => exact ih s.pwmTick

/-- Up to PWM_TOP the running counter counts one by one, and nothing else of the PWM state moves (R39). -/
theorem pwmTicks_of_le {s : State} {k : Nat} (hon : s.pwm.on = true) (hctr : s.pwm.ctr = 0)
    (hk : k ≤ s.cfg.params.pwmTop.toNat) :
    pwmTicks k s = { s with pwm := { s.pwm with ctr := BitVec.ofNat 16 k }, freeCount := s.freeCount + k } := by
  induction k with
  | zero => exact congrArg (fun c => { s with pwm := { s.pwm with ctr := c } }) hctr
  | succ k ih =>
    have hbelow : BitVec.ofNat 16 k ≠ s.cfg.params.pwmTop := by
      intro h
      have htop : s.cfg.params.pwmTop.toNat ≤ k := h ▸ Nat.mod_le k _
      omega
    rw [pwmTicks_succ_last, ih (by omega), pwmTick_count, BitVec.ofNat_add]
    · rfl
    · exact hon
    · exact hbelow

/-- With no open period BL is 1 at the count `k` exactly when `k` is below PWM_CMP (R160, log 13). -/
theorem bl_pwmTicks {s : State} {k : Nat} (hon : s.pwm.on = true) (hfresh : s.pwm.fresh = false)
    (hctr : s.pwm.ctr = 0) (hk : k ≤ s.cfg.params.pwmTop.toNat) :
    (pwmTicks k s).bl = decide (k < s.pwm.cmp.toNat) := by
  have hcount : k % 65536 = k := Nat.mod_eq_of_lt (Nat.lt_of_le_of_lt hk s.cfg.params.pwmTop.isLt)
  simp [pwmTicks_of_le hon hctr hk, State.bl, hon, hfresh, hcount]

theorem filter_lt_range_length (c n : Nat) : ((List.range n).filter (fun k => k < c)).length = min c n := by
  induction n with
  | zero => rw [List.range_zero, List.filter_nil, List.length_nil, Nat.min_zero]
  | succ n ih =>
    have hlast : [n].filter (fun k => k < c) = if n < c then [n] else [] := by
      simp only [List.filter_cons, List.filter_nil, decide_eq_true_eq]
    rw [List.range_succ, List.filter_append, List.length_append, ih, hlast]
    split
    · rw [List.length_singleton]
      omega
    · rw [List.length_nil]
      omega

/-- Settles O54: BL at each count of the period by `bl_pwmTicks`, and the count at PWM_TOP wraps. -/
theorem backlightDutyCycle : Obligations.BacklightDutyCycle := by
  intro s hon hfresh hctr
  constructor
  · rw [← filter_lt_range_length]
    refine congrArg List.length (List.filter_congr fun k hk => ?_)
    exact bl_pwmTicks hon hfresh hctr (Nat.lt_succ_iff.1 (List.mem_range.1 hk))
  · rw [pwmTicks_succ_last, pwmTicks_of_le hon hctr (Nat.le_refl _), pwmTick_wrap]
    · exact hon
    · exact (BitVec.ofNat_toNat 16 _).trans (BitVec.setWidth_eq _)

end Sys2Proof.Machine
end

section
/-! Proofs, layer 17: what is rejected and what cannot fault: the rejections of the transfers and the register commands,
the frame of any rejection, steps from the invariant, and records that are no configuration (spec/60_exceptions.md R171
to R180). -/

namespace Sys2Proof.Machine

/-! The rejections of XFER and PIXELS (R173, R174). -/

section
variable {s : State} {buf len : Word}

theorem checkXfer_notReady (hp : s.phase ≠ .ready) : checkXfer s buf len = some .notReady := if_pos hp

theorem checkXfer_bufRange (hp : s.phase = .ready) (hbuf : 4294967296 < buf.toNat + len.toNat) :
    checkXfer s buf len = some .bufRange := by
  have hover : bufOverruns buf len = true := decide_eq_true hbuf
  simp [checkXfer, hp, hover]

/-- A transfer whose check names a cause is rejected for it, under either name (R88). -/
theorem exec_transfer_raise {d : Bool} {i : Instr} {c : Cause} (hi : isTransfer d buf len i) (hb : s.busy = false)
    (hc : checkXfer s buf len = some c) : exec i s = .next (s.raise c) := by
  rw [exec_core, hi.core, exec, execXfer, submitXfer, hc, submit_some hb]

end

/-- Settles O24: the first check that fails names the cause, and `raise` sets its bit. -/
theorem transferRejections : Obligations.TransferRejections := by
  intro d buf len i s hi hb
  refine ⟨fun hp => ?_, fun hp hbuf => ?_⟩
  · exact exec_transfer_raise hi hb (checkXfer_notReady hp)
  · exact exec_transfer_raise hi hb (checkXfer_bufRange hp hbuf)

/-! The rejections of WREG and the panel commands (R113, R173). -/

section
variable {s : State} {n : Nat}

theorem checkWreg_notReady (hp : s.phase ≠ .ready) : checkWreg s n = some .notReady := if_pos hp

theorem checkWreg_paramOverflow (hp : s.phase = .ready) (hn : s.cfg.params.txbufCap < n) :
    checkWreg s n = some .paramOverflow := by
  simp [checkWreg, hp, hn]

/-- A register command whose check names a cause is rejected for it, under each of its names (R88). -/
theorem exec_registerCommand_raise {opc : Byte} {ps : List Word} {i : Instr} {c : Cause}
    (hi : isRegisterCommand s.cfg.params opc ps i) (hb : s.busy = false) (hc : checkWreg s ps.length = some c) :
    exec i s = .next (s.raise c) := by
  rw [exec_core, hi.core, exec, execWreg, submitWreg, hc, submit_some hb]

end

/-- Settles O25: the first check that fails names the cause, and `raise` sets its bit. -/
theorem registerCommandRejections : Obligations.RegisterCommandRejections := by
  intro opc ps i s hi hb
  refine ⟨fun hp => ?_, fun hp hn => ?_⟩
  · exact exec_registerCommand_raise hi hb (checkWreg_notReady hp)
  · exact exec_registerCommand_raise hi hb (checkWreg_paramOverflow hp hn)

/-! Any rejection (R171, R175). -/

/-- Settles O29: a submission that answers was rejected with a cause or accepted, and an acceptance sets BUSY. -/
theorem rejectionChangesOnlyFaultAndResp : Obligations.RejectionChangesOnlyFaultAndResp := by
  intro i s t h hidle
  obtain ⟨-, ⟨c, hraise⟩ | ⟨j, -, ha⟩⟩ := exec_next h
  · exact ⟨c, hraise⟩
  · exact absurd ha.busy (by simp [hidle])

/-! No step from the invariant faults (R105, R178). -/

/-- The invariant promises that the whole queue can be performed (R33). -/
theorem State.Inv.canPerform {s : State} (h : s.Inv) : CanPerform s s.uq :=
  ⟨s.txlen, Nat.le_refl _, h.tx_length.symm ▸ h.tx_fill, h.queue_safe⟩

/-- With an empty queue BUSY is 0 and the engine has nothing to do; otherwise it can perform the head (R35). -/
theorem State.Inv.engineStep_ne_fault {s : State} (h : s.Inv) (f : Fault) : engineStep s ≠ .fault f := by
  have hcan := h.canPerform
  cases hq : s.uq with
  | nil =>
    have hb : s.busy = false := Bool.eq_false_iff.2 fun hb => h.busy_iff.1 hb hq
    simp [engineStep_idle hq hb]
  | cons u rest =>
    rw [hq] at hcan
    simp [engineStep_of_perform hq hcan.perform_eq]

/-- Settles O38: a step faults only where the engine does, and from the invariant the engine does not. -/
theorem invariantStepNeverFaults : Obligations.InvariantStepNeverFaults := by
  intro s f h hs
  obtain hengine | ⟨rest, -, hengine⟩ := step_fault hs
  · exact h.engineStep_ne_fault f hengine
  · exact (h.withInputs rest).engineStep_ne_fault f hengine

/-! Records and configurations (R8, R180). -/

theorem build_of_ok {p : Params} (h : p.ok = true) : Config.build p = some { params := p, ok := h } := dif_pos h

theorem build_of_not_ok {p : Params} (h : ¬ p.ok = true) : Config.build p = none := dif_neg h

/-- Settles O57: `params_ok_iff` reads the constraints as the test that `Config.build` makes. -/
theorem configMeetsConstraints : Obligations.ConfigMeetsConstraints := by
  intro p
  rw [← params_ok_iff]
  exact ⟨fun hok => ⟨_, build_of_ok hok, rfl⟩, build_of_not_ok⟩

end Sys2Proof.Machine
end

section
/-! Proofs, layer 18: an accepted operation ends after exactly as many engine steps as its queue is long
(spec/70_reset_and_hazards.md R219, spec/60_exceptions.md R178, R181). -/

namespace Sys2Proof.Machine

/-! Acceptance. -/

/-- No acceptance touches host memory (R53). -/
theorem Accepts.mem {s t : State} {i : Instr} (h : Accepts s i t) : t.mem = s.mem := by
  cases h <;> rfl

/-- No acceptance raises a fault (R171). -/
theorem Accepts.fault {s t : State} {i : Instr} (h : Accepts s i t) : t.fault = s.fault := by
  cases h <;> rfl

/-- A submission that leaves BUSY = 1 was accepted: a rejection leaves the BUSY = 0 it found (R36, R171). -/
theorem exec_accepts_of_busy {i : Instr} {s t : State} (h : exec i s = .next t) (hbusy : t.busy = true) :
    s.busy = false ∧ ∃ j, Accepts s j t := by
  obtain ⟨hb, ⟨c, rfl⟩ | ⟨j, -, ha⟩⟩ := exec_next h
  · simp [hb] at hbusy
  · exact ⟨hb, j, ha⟩

/-! The run from the invariant (R35, R178). -/

theorem steps_inv {n : Nat} {s t : State} (h : s.Inv) (hrun : steps n s = .next t) : t.Inv := by
  induction n generalizing s with
  | zero => cases hrun; exact h
  | succ n ih =>
    obtain ⟨m, hm, hrest⟩ := steps_succ_next hrun
    exact ih (h.step hm) hrest

/-- With no act left each step performs the head of UQ, so `k` steps take the first `k` off it. -/
theorem exists_steps_uq_drop {s : State} {k : Nat} (h : s.Inv) (hin : s.inputs = []) (hk : k ≤ s.uq.length) :
    ∃ v, steps k s = .next v ∧ v.uq = s.uq.drop k := by
  induction k generalizing s with
  | zero => exact ⟨s, rfl, rfl⟩
  | succ k ih =>
    have hcan := h.canPerform
    cases hq : s.uq with
    | nil => simp [hq] at hk
    | cons u rest =>
      rw [hq] at hcan hk
      have hstep := step_performs (left := []) hq hcan.perform_eq (.inl ⟨hin, rfl⟩)
      obtain ⟨v, hv, huq⟩ := ih (h.step hstep) (by simp) (by simpa using hk)
      exact ⟨v, (steps_succ hstep).trans hv, by simpa using huq⟩

/-- Until the whole queue has been performed the operation still runs (R29, R32). -/
theorem exists_steps_pending {s : State} {k : Nat} (h : s.Inv) (hin : s.inputs = []) (hk : k < s.uq.length) :
    ∃ v, steps k s = .next v ∧ v.busy = true ∧ v.resp = .pending := by
  obtain ⟨v, hv, huq⟩ := exists_steps_uq_drop h hin (Nat.le_of_lt hk)
  have hinv := steps_inv h hv
  have hbusy : v.busy = true := hinv.busy_iff.2 (by simp [huq, hk])
  exact ⟨v, hv, hbusy, hinv.pending_iff.2 hbusy⟩

/-- The operation that runs with no act left performs its whole queue and ends (R35). -/
theorem State.Inv.steps_uq {s : State} (h : s.Inv) (hin : s.inputs = []) (hb : s.busy = true) :
    steps s.uq.length s = .next ((s.afterOps s.uq).retire []) :=
  steps_queue rfl (h.busy_iff.1 hb) hb (.inl hin) h.canPerform

/-- No micro-operation raises a fault (R178). -/
theorem afterOps_fault (s : State) (us : List MicroOp) : (s.afterOps us).fault = s.fault := by
  induction us generalizing s with
  | nil => rfl
  | cons u us ih =>
    rw [afterOps_cons, ih]
    cases u <;> rfl

/-- Settles O21: the acceptance keeps the invariant, from which the engine performs the whole queue; at the end the
invariant puts the wires between calls, where CS is 1. -/
theorem acceptedOperationFinishes : Obligations.AcceptedOperationFinishes := by
  intro i s t h hin hexec hbusy
  obtain ⟨hidle, j, ha⟩ := exec_accepts_of_busy hexec hbusy
  have hinv : t.Inv := h.accepts hidle ha
  have hin' : t.inputs = [] := ha.frame.inputs.trans hin
  refine ⟨?_, fun k hk => exists_steps_pending hinv hin' hk⟩
  have hrun := hinv.steps_uq hin' hbusy
  refine ⟨_, hrun, rfl, rfl, rfl, ?_, ?_, ?_⟩
  · exact ((steps_inv hinv hrun).wire_idle rfl).2
  · rw [retire_fault, afterOps_fault, ha.fault]
  · rw [retire_trace, afterOps_trace, ha.frame.trace, ha.frame.txbuf, ha.mem]

end Sys2Proof.Machine
end
